-- ==== Sys2Proof/Word.lean ====
section
/-! DEFINITION. The widths the spec names, and the two forms in which a host item reaches the block's command port. -/

namespace Sys2Proof

/-- A byte: 8 bits, bit 0 the least significant (00_scope.md R7). -/
abbrev Byte := BitVec 8

/-- A host command word: HOP in bits 15:8, ARG8 in bits 7:0 (30_encoding.md R90). -/
abbrev Hcw := BitVec 16

/-- The width of `DATA64` and `RDATA64` (30_encoding.md R90; 10_state.md R23). -/
abbrev Word64 := BitVec 64

/-- One encoded item on the host command port.
`hcw` is the host operation of 30_encoding.md R90: a command word with its data operand.
`wire` is a row of format WIRE8 of opcode_table.json: the host asks the framer for one wire opcode
(30_encoding.md R95).
That a wire opcode can stand on the port by itself is a DESIGN CHOICE (notes/assumptions/2.md). -/
inductive Command where
  | hcw (word : Hcw) (data64 : Word64)
  | wire (opcode : Byte)
  deriving DecidableEq, Repr, Inhabited

end Sys2Proof
end

