-- ==== Sys2Proof/Syntax.lean ====
section
/-! DEFINITION. The instructions: one constructor per row of opcode_table.json, in the table's order. -/

namespace Sys2Proof

/-- The seven host operations (30_encoding.md R91) and the twenty wire opcodes (30_encoding.md R95). -/
inductive Instr where
  /-- NOP, 43_rlc_decoder.md R211. -/
  | nop
  /-- SEND_OPCODE, 40_escape_codec.md R122. -/
  | sendOpcode (opc : Byte)
  /-- SEND_ESCAPED, 40_escape_codec.md R123. -/
  | sendEscaped (byte : Byte)
  /-- ARM, 43_rlc_decoder.md R214. -/
  | arm
  /-- ABORT, 43_rlc_decoder.md R215. -/
  | abort
  /-- WRITE_REG, 43_rlc_decoder.md R212. -/
  | writeReg (addr : Byte) (data : Word64)
  /-- READ_REG, 43_rlc_decoder.md R213. -/
  | readReg (addr : Byte)
  /-- reset 0xEE, 41_command_frames.md R140. -/
  | reset
  /-- escape 0x55, R141. -/
  | escape
  /-- get-bus-widths 0xAA, R142. -/
  | getBusWidths
  /-- get-id 0xBB, R143. -/
  | getId
  /-- get-features 0x10, R144. -/
  | getFeatures
  /-- get-rlc-width 0x60, R145. -/
  | getRlcWidth
  /-- get-channel-names 0x70, R146. -/
  | getChannelNames
  /-- get-sample-rate 0x80, R147. -/
  | getSampleRate
  /-- start 0xFE, R148. -/
  | start
  /-- configure-LA 0x0F, R149. -/
  | configureLA
  /-- LA-delay-sub 0x1F, R150. -/
  | laDelaySub
  /-- configure-trigger 0xF0, R151. -/
  | configureTrigger
  /-- trigger-masks-group 0xF1, R152. -/
  | triggerMasksGroup
  /-- trigger-masks-last-group 0xF9, R153. -/
  | triggerMasksLastGroup
  /-- trigger-mask-sel 0xF3, R154. -/
  | triggerMaskSel
  /-- trigger-value-sel 0xF7, R155. -/
  | triggerValueSel
  /-- trigger-mask-last-sel 0xFB, R156. -/
  | triggerMaskLastSel
  /-- trigger-value-last-sel 0xFF, R157. -/
  | triggerValueLastSel
  /-- edge-select 0xF5, R158. -/
  | edgeSelect
  /-- edge-set 0xF6, R159. -/
  | edgeSet
  deriving DecidableEq, Repr, Inhabited

end Sys2Proof
end

