-- ==== Sys2Proof/Decode.lean ====
section
/-! DEFINITION. Decoding and encoding of host items (30_encoding.md R90–R95), from the two encoding tables of the spec. -/

namespace Sys2Proof

/-- Why an item is no instruction (30_encoding.md R93, R99). -/
inductive DecodeError where
  /-- HOP is not in the map of R91. -/
  | reservedHop (hop : Byte)
  /-- NOP, ARM or ABORT with ARG8 not 0x00. -/
  | nonzeroArg (hop arg : Byte)
  /-- A wire byte that is not in the list of R95. -/
  | unlistedOpcode (opcode : Byte)
  deriving DecidableEq, Repr

/-- `HOP = HCW[15:8]` (R90). -/
def hopOf (w : Hcw) : Byte := w.extractLsb' 8 8

/-- `ARG8 = HCW[7:0]` (R90). -/
def arg8Of (w : Hcw) : Byte := w.extractLsb' 0 8

/-- An operation whose ARG8 must be 0x00 (R91, R93). -/
def needsZeroArg (hop arg : Byte) (i : Instr) : Except DecodeError Instr :=
  if arg = 0x00#8 then .ok i else .error (.nonzeroArg hop arg)

/-- The host operation map (R91) with the illegal words of R93. -/
def decodeHcw (w : Hcw) (data64 : Word64) : Except DecodeError Instr :=
  let hop := hopOf w
  let arg := arg8Of w
  if hop = 0x00#8 then needsZeroArg hop arg .nop
  else if hop = 0x01#8 then .ok (.sendOpcode arg)
  else if hop = 0x02#8 then .ok (.sendEscaped arg)
  else if hop = 0x10#8 then needsZeroArg hop arg .arm
  else if hop = 0x11#8 then needsZeroArg hop arg .abort
  else if hop = 0x20#8 then .ok (.writeReg arg data64)
  else if hop = 0x21#8 then .ok (.readReg arg)
  else .error (.reservedHop hop)

/-- The complete list of wire opcodes (R95): "single bytes, must match exactly". -/
def wireTable : List (Byte × Instr) :=
  [ (0xEE#8, .reset), (0x55#8, .escape), (0xAA#8, .getBusWidths), (0xBB#8, .getId),
    (0x10#8, .getFeatures), (0x60#8, .getRlcWidth), (0x70#8, .getChannelNames),
    (0x80#8, .getSampleRate), (0xFE#8, .start), (0x0F#8, .configureLA), (0x1F#8, .laDelaySub),
    (0xF0#8, .configureTrigger), (0xF1#8, .triggerMasksGroup), (0xF9#8, .triggerMasksLastGroup),
    (0xF3#8, .triggerMaskSel), (0xF7#8, .triggerValueSel), (0xFB#8, .triggerMaskLastSel),
    (0xFF#8, .triggerValueLastSel), (0xF5#8, .edgeSelect), (0xF6#8, .edgeSet) ]

/-- A wire opcode by its byte (R95). -/
def decodeWire (b : Byte) : Except DecodeError Instr :=
  match wireTable.find? (fun row => row.1 == b) with
  | some row => .ok row.2
  | none => .error (.unlistedOpcode b)

/-- Decoding is total: an instruction, or the reason there is none. -/
def decode : Command → Except DecodeError Instr
  | .hcw w d => decodeHcw w d
  | .wire b => decodeWire b

/-- A host command word from its two fields (R90). -/
def hcwOf (hop arg : Byte) : Hcw := hop ++ arg

/-- The item that encodes an instruction: R91 for the host operations, R95 for the wire opcodes.
`DATA64` is 0 where the operation ignores it (R90). -/
def encode : Instr → Command
  | .nop => .hcw (hcwOf 0x00#8 0x00#8) 0#64
  | .sendOpcode c => .hcw (hcwOf 0x01#8 c) 0#64
  | .sendEscaped b => .hcw (hcwOf 0x02#8 b) 0#64
  | .arm => .hcw (hcwOf 0x10#8 0x00#8) 0#64
  | .abort => .hcw (hcwOf 0x11#8 0x00#8) 0#64
  | .writeReg a v => .hcw (hcwOf 0x20#8 a) v
  | .readReg a => .hcw (hcwOf 0x21#8 a) 0#64
  | .reset => .wire 0xEE#8
  | .escape => .wire 0x55#8
  | .getBusWidths => .wire 0xAA#8
  | .getId => .wire 0xBB#8
  | .getFeatures => .wire 0x10#8
  | .getRlcWidth => .wire 0x60#8
  | .getChannelNames => .wire 0x70#8
  | .getSampleRate => .wire 0x80#8
  | .start => .wire 0xFE#8
  | .configureLA => .wire 0x0F#8
  | .laDelaySub => .wire 0x1F#8
  | .configureTrigger => .wire 0xF0#8
  | .triggerMasksGroup => .wire 0xF1#8
  | .triggerMasksLastGroup => .wire 0xF9#8
  | .triggerMaskSel => .wire 0xF3#8
  | .triggerValueSel => .wire 0xF7#8
  | .triggerMaskLastSel => .wire 0xFB#8
  | .triggerValueLastSel => .wire 0xFF#8
  | .edgeSelect => .wire 0xF5#8
  | .edgeSet => .wire 0xF6#8

/-- The port item whose bits are `w`, the first `nbits` of them given and the rest 0:
8 bits are a wire opcode, otherwise bits 15:0 are the command word and bits 79:16 are `DATA64`
(notes/assumptions/2.md). -/
def commandOfBits (nbits w : Nat) : Command :=
  if nbits = 8 then .wire (BitVec.ofNat 8 w)
  else .hcw (BitVec.ofNat 16 (w % 2 ^ nbits)) (BitVec.ofNat 64 ((w % 2 ^ nbits) >>> 16))

/-- The instruction the decoder reads from a row of opcode_table.json: 8 bits (WIRE8), 16 bits (HCW16),
or 80 bits (a command word with its `DATA64`). -/
def decodeTableWord (nbits w : Nat) : Option Instr :=
  if nbits = 8 ∨ nbits = 16 ∨ nbits = 80 then (decode (commandOfBits nbits w)).toOption else none

end Sys2Proof
end

