-- ==== Sys2Proof/Machine/Types.lean ====
section
/-! DEFINITION. The plain data the machine and its agents are made of (10_state.md R20, R29, R42–R44). -/

namespace Sys2Proof.Machine

/-- Sparse storage: (address, value) pairs, addresses strictly rising.
An unlisted address holds no written value. -/
abbrev Store (α : Type) := List (Nat × α)

/-- A byte-addressed space (20_memory.md R60). -/
abbrev Memory := Store Byte

/-- The byte-addressed spaces of the block (20_memory.md R60). -/
inductive Space where
  | rawbuf | outbuf
  deriving DecidableEq, Repr, Inhabited

/-- `STATE` (10_state.md R29). Values 5, 6 and 7 are never held (93_implementation_defined.md I18). -/
inductive DecoderState where
  | idle | accumulating | decoding | delivering | done
  deriving DecidableEq, Repr, Inhabited

/-- `DELIV_PHASE` (10_state.md R43). -/
inductive DelivPhase where
  | pre | trig | post
  deriving DecidableEq, Repr, Inhabited

/-- The events the SINK accepts (10_state.md R20). -/
inductive SinkEvent where
  /-- `LOGIC(bytes, unitsize)`, by value (70_reset_and_hazards.md R303). -/
  | logic (bytes : List Byte) (unitsize : Nat)
  /-- `TRIGGER`. -/
  | trigger
  /-- `END`. -/
  | endOfAcquisition
  deriving DecidableEq, Repr

/-- The implementation parameters a model takes as arguments (00_scope.md R6). -/
structure Params where
  chunkMax : Nat
  rawCapacityBytes : Nat
  rptCapacityEntries : Nat
  outCapacityBytes : Nat
  dataWidthMax : Nat
  addrWidthMax : Nat
  rlcWidthMax : Nat
  negTimeout : Nat
  deriving DecidableEq, Repr

/-- The constraints of the table of 00_scope.md R6. -/
abbrev Params.wf (p : Params) : Prop :=
  1 ≤ p.chunkMax ∧ 1 ≤ p.rawCapacityBytes ∧ 1 ≤ p.rptCapacityEntries ∧ 1 ≤ p.outCapacityBytes ∧
  (1 ≤ p.dataWidthMax ∧ p.dataWidthMax ≤ 2 ^ 32 - 1) ∧ p.addrWidthMax ≤ 63 ∧ p.rlcWidthMax ≤ 255 ∧
  0 < p.negTimeout

/-! ### The HOST's data (10_state.md R44; 42_host_functions.md) -/

/-- Protocol versions 0 and 1 (00_scope.md R1; 42_host_functions.md R191). -/
inductive ProtocolVersion where
  | v0 | v1
  deriving DecidableEq, Repr, Inhabited

/-- The host-side exceptions, codes 8 to 10 (60_exceptions.md R260, R269). -/
inductive HostException where
  | protocolMismatch | timeout | hostConnectionError
  deriving DecidableEq, Repr, Inhabited

/-- DeviceCapabilities (42_host_functions.md R190). The derived fields are functions of these.
`givenNames` holds the channel names the device gave; every other name is synthesized. -/
structure DeviceCapabilities where
  protocolVersion : ProtocolVersion
  featureFlags : BitVec 32
  dataWidth : Nat
  addrWidth : Nat
  runlengthCodeWidth : Byte
  givenNames : List (Nat × List Byte)
  sampleRate : Option Word64
  deriving DecidableEq, Repr

/-- One channel name: the bytes the device gave, or "CH<index>" (42_host_functions.md R194). -/
inductive ChannelName where
  | given (bytes : List Byte)
  | synthesized (text : String)
  deriving DecidableEq, Repr

/-- The five trigger vectors (42_host_functions.md R197; 30_encoding.md R107). -/
structure TriggerVectors where
  mask : List Byte
  value : List Byte
  maskLast : List Byte
  valueLast : List Byte
  edgeMask : List Byte
  deriving DecidableEq, Repr, Inhabited

/-- `match_kind` (42_host_functions.md R198). -/
inductive MatchKind where
  | one | zero | rising | falling | edge
  deriving DecidableEq, Repr, Inhabited

/-- One trigger specification (42_host_functions.md R198). -/
structure TriggerSpec where
  channel : Nat
  enabled : Bool
  kind : MatchKind
  deriving DecidableEq, Repr, Inhabited

/-- What the host's blocking read is waiting for (41_command_frames.md R142–R147).
A channel name takes two reads: its length, then its bytes. -/
inductive Query where
  | identity
  | features
  | busWidths
  | rlcWidth
  | nameLength (channel : Nat)
  | nameBytes (channel : Nat) (len : Nat)
  | sampleRate
  deriving DecidableEq, Repr, Inhabited

/-- The registers the host reads after an acquisition (70_reset_and_hazards.md R292, step 7). -/
inductive ResultRegister where
  | totalSamples | delayValue | status
  deriving DecidableEq, Repr, Inhabited

/-- What the host has read of an acquisition's results; `none` where it has not read yet. -/
structure AcquisitionResults where
  totalSamples : Option Word64
  delayValue : Option Word64
  status : Option Word64
  deriving DecidableEq, Repr

/-- Where the host stands in its boot order (70_reset_and_hazards.md R292). -/
inductive HostPhase where
  /-- After a reset: steps 1 and 2 are done. -/
  | notStarted
  /-- Step 3: a request has been made and its reply is awaited (41_command_frames.md R163). -/
  | awaiting (q : Query)
  /-- Step 4 is on the port: an acquisition may begin. -/
  | negotiated
  /-- Step 6: an acquisition has begun, the SINK having received `sinkMark` events before it. -/
  | acquiring (sinkMark : Nat)
  /-- Step 6: the host has asked for STATE. -/
  | polling (sinkMark : Nat)
  /-- Step 7: the host has asked for a result. -/
  | collecting (r : ResultRegister)
  /-- The identity check failed: no acquisition can start (60_exceptions.md R269). -/
  | failed (e : HostException)
  deriving DecidableEq, Repr, Inhabited

/-- The HOST's own state, outside the block (10_state.md R44). -/
structure HostState where
  caps : DeviceCapabilities
  vectors : TriggerVectors
  phase : HostPhase
  /-- The host-side exceptions met so far, in order (60_exceptions.md R260, "host only"). -/
  exceptions : List HostException
  /-- The sample count the host last asked for; `none` while it is still `limit_samples_max` (R193). -/
  requestedLimit : Option Nat
  /-- The capture ratio the host last wrote. -/
  captureRatio : Byte
  /-- Whether the last trigger translation failed (42_host_functions.md R199). -/
  translationFailed : Bool
  /-- The results of the last acquisition, as far as the host has read them (70_reset_and_hazards.md R292). -/
  results : AcquisitionResults
  deriving DecidableEq, Repr

/-- DeviceCapabilities before the negotiation: nothing discovered (DESIGN CHOICE, notes/assumptions/8.md). -/
def DeviceCapabilities.initial : DeviceCapabilities where
  protocolVersion := .v0
  featureFlags := 0
  dataWidth := 0
  addrWidth := 0
  runlengthCodeWidth := 0
  givenNames := []
  sampleRate := none

/-- The HOST before a session (DESIGN CHOICE, notes/assumptions/8.md). -/
def HostState.initial : HostState where
  caps := .initial
  vectors := ⟨[], [], [], [], []⟩
  phase := .notStarted
  exceptions := []
  requestedLimit := none
  captureRatio := 0
  translationFailed := false
  results := ⟨none, none, none⟩

/-- A reset begins a new session: the host stands at the start of its boot order again (70_reset_and_hazards.md R292).
What it met before is history (notes/assumptions/15.md). -/
def HostState.newSession (h : HostState) : HostState := { HostState.initial with exceptions := h.exceptions }

/-- What the host does at the start of an acquisition: the trigger specifications, and the optional writes
of LIMIT_SAMPLES and CAPTURE_RATIO (42_host_functions.md R201). -/
structure AcquisitionRequest where
  specs : List TriggerSpec
  limit : Option Nat
  ratio : Option Byte
  deriving DecidableEq, Repr, Inhabited

/-- How the host's blocking read ends (42_host_functions.md, opening; 60_exceptions.md R269).
`lost` is how many bytes a failed read took from the RX stream: no source says (notes/assumptions/9.md). -/
inductive ReadAnswer where
  | answered
  | timedOut (lost : Nat)
  | connectionError (lost : Nat)
  deriving DecidableEq, Repr, Inhabited

/-- Who moves next, with that step's free inputs (00_scope.md R10, 60_exceptions.md R272). -/
inductive Turn where
  /-- HOST: issue the next item of the host command port. -/
  | hostOp
  /-- HOST: begin the negotiation (41_command_frames.md R163). -/
  | hostNegotiate
  /-- HOST: one blocking read of the awaited reply (42_host_functions.md). -/
  | hostRead (answer : ReadAnswer)
  /-- HOST: begin an acquisition (41_command_frames.md R164). -/
  | hostAcquire (request : AcquisitionRequest)
  /-- HOST: follow the acquisition to its end and read its results (70_reset_and_hazards.md R292, steps 6 and 7). -/
  | hostFollow
  /-- HOST: hand over any items, for "any host operation is allowed at any time" (60_exceptions.md R276); after a failed
  identity check those that configure or ARM the block are kept back (R269). -/
  | hostIssues (items : List Command)
  /-- DEVICE over LINK: bytes join the RX stream (20_memory.md R65). -/
  | deviceSends (bytes : List Byte)
  /-- LINK: a readiness notification that offers `n` bytes (43_rlc_decoder.md R216). -/
  | rxReady (n : Nat)
  /-- BLOCK: the decoder's internal step (43_rlc_decoder.md R217–R223). -/
  | decoderStep
  /-- The block's reset input (70_reset_and_hazards.md R290). -/
  | resetInput
  deriving DecidableEq, Repr, Inhabited

end Sys2Proof.Machine
end

