-- ==== Sys2Proof/Config.lean ====
section
/-! DEFINITION. What the spec leaves open: the implementation parameters (00_scope.md R6) and the draws (R9).
Each is an opaque constant: nothing can be proved of its value beyond its type. -/

namespace Sys2Proof.Config

open Sys2Proof.Machine

/-! ### Parameters. The type or the `+ 1` carries the constraint of R6. -/

opaque chunkMaxLessOne : Nat
opaque rawCapacityLessOne : Nat
opaque rptCapacityLessOne : Nat
opaque outCapacityLessOne : Nat
opaque dataWidthMaxLessOne : Fin (4294967294 + 1)
opaque addrWidthMax : Fin 64
opaque rlcWidthMax : Byte
opaque negTimeoutLessOne : Nat

/-- The parameters of this block, fixed for its lifetime (00_scope.md R6). -/
def params : Params where
  chunkMax := chunkMaxLessOne + 1
  rawCapacityBytes := rawCapacityLessOne + 1
  rptCapacityEntries := rptCapacityLessOne + 1
  outCapacityBytes := outCapacityLessOne + 1
  dataWidthMax := dataWidthMaxLessOne.val + 1
  addrWidthMax := addrWidthMax.val
  rlcWidthMax := rlcWidthMax.toNat
  negTimeout := negTimeoutLessOne + 1

/-! ### Draws. The first argument is the state's draw counter (or release count), so that each draw is fresh. -/

/-- The LINK's answer to one `tx_write` (20_memory.md R66), where the state lists none. -/
opaque linkAnswer : Nat → Bool

/-- Which agent moves next (00_scope.md R10), where the state lists no turn. -/
opaque freeTurn : Nat → Turn

/-- Byte `j` of a payload window past the end of a raw sample (30_encoding.md R102): release count, raw sample, `j`. -/
opaque windowByte : Nat → Nat → Nat → Byte

/-- A buffer byte nothing has written since the last reset or release (10_state.md R45, 20_memory.md R77):
release count, space, address. -/
opaque unspecifiedByte : Nat → Space → Nat → Byte

/-- A byte of the host's trigger vectors after a translation that failed (42_host_functions.md R199 states none):
draw, vector, byte. -/
opaque vectorByteAfterFailure : Nat → Nat → Nat → Byte

/-- The delay the host sends for a sample count or a ratio that 42_host_functions.md R200 defines no delay for. -/
opaque delayOutsideRange : Nat → Nat

end Sys2Proof.Config
end

