-- ==== Sys2Proof/Machine/State.lean ====
section
/-! DEFINITION. The machine's state (10_state.md), its reset value (10_state.md R45) and the reasons a step can stop. -/

namespace Sys2Proof.Machine

/-- Why the machine stops. -/
inductive Fault where
  /-- An access to RAWBUF or OUTBUF at or past the capacity, an address 20_memory.md R60 does not give the space.
  Raised by RX_READY, DECODE and the DELIVER steps, only in states that no run reaches.
  Safe: the model stops where the spec says nothing. -/
  | outsideSpace (space : Space) (last : Nat)
  deriving DecidableEq, Repr

/-- Why an instruction is refused. -/
inductive Refusal where
  /-- The instruction has no meaning in the model. No arm of `exec` answers it.
  Safe: nothing is claimed of such an instruction. -/
  | notModelled (mnemonic : String)
  deriving DecidableEq, Repr

/-- The block's state, the streams at its edge, the HOST's records, and the free inputs of the steps to come. -/
structure State where
  /-- The implementation parameters (00_scope.md R6); no step changes them (DESIGN CHOICE, notes/assumptions/1.md). -/
  params : Params
  /-- 0x00 (10_state.md R24). -/
  dataWidth : BitVec 32
  /-- 0x01 (R25). -/
  addrWidth : BitVec 32
  /-- 0x02 (R26). -/
  rlcWidth : BitVec 8
  /-- 0x03 (R27). -/
  limitSamples : BitVec 64
  /-- 0x04 (R28). -/
  captureRatio : BitVec 8
  /-- 0x10 (R29). -/
  state : DecoderState
  /-- 0x11 (R30). -/
  status : BitVec 8
  /-- 0x12 (R31), an unbounded natural (92_eei_decisions.md D7). -/
  transferredBytes : Nat
  /-- 0x13 (R32). -/
  totalSamples : Nat
  /-- 0x14 (R33). -/
  delayRaw : Nat
  /-- 0x15 (R34). -/
  delayValue : Nat
  /-- 0x1B (R40). -/
  rxEn : Bool
  /-- The result of the last READ_REG (30_encoding.md R90). Kept between reads, 0 at reset
  (DESIGN CHOICE, notes/assumptions/10.md; unsafe). -/
  rdata64 : Word64
  /-- RAWBUF (20_memory.md R61). -/
  rawbuf : Memory
  /-- RPT (20_memory.md R62). -/
  rpt : Store Nat
  /-- OUTBUF (20_memory.md R63). -/
  outbuf : Memory
  /-- `OUT_SRC` (10_state.md R42). -/
  outSrc : Space
  /-- `DELIV_PHASE` (10_state.md R43). -/
  delivPhase : DelivPhase
  /-- The TX stream, oldest byte first (20_memory.md R64). -/
  tx : List Byte
  /-- The RX stream, front first (20_memory.md R65). -/
  rx : List Byte
  /-- The SINK's events, oldest first (20_memory.md R60, R81). -/
  sink : List SinkEvent
  /-- The HOST's records (10_state.md R44). -/
  host : HostState
  /-- The items the HOST has yet to issue on its command port (20_memory.md R85; DESIGN CHOICE,
  notes/assumptions/6.md). -/
  port : List Command
  /-- The model's own: the turns to come (00_scope.md R10; DESIGN CHOICE, notes/assumptions/5.md). -/
  schedule : List Turn
  /-- The model's own: the LINK's answers to the `tx_write`s to come (20_memory.md R66; DESIGN CHOICE,
  notes/assumptions/7.md). -/
  answers : List Bool
  /-- The model's own: the draw counter, which makes each draw fresh (notes/assumptions/5.md, 7.md, 16.md, 28.md). -/
  draws : Nat
  /-- The model's own: how many times the buffers' contents have become unspecified
  (DESIGN CHOICE, notes/assumptions/11.md, 12.md). -/
  epoch : Nat
  deriving DecidableEq, Repr

/-- The outcome of a step of this machine. -/
abbrev Result := Host.Outcome State Fault Refusal

/-- The machine right after reset: 10_state.md R23 and R45. Buffers list nothing, so every byte is unspecified. -/
def State.reset : State where
  params := Config.params
  dataWidth := 0
  addrWidth := 0
  rlcWidth := 0
  limitSamples := 1
  captureRatio := 0
  state := .idle
  status := 0
  transferredBytes := 0
  totalSamples := 0
  delayRaw := 0
  delayValue := 0
  rxEn := false
  rdata64 := 0
  rawbuf := []
  rpt := []
  outbuf := []
  outSrc := .rawbuf
  delivPhase := .pre
  tx := []
  rx := []
  sink := []
  host := .initial
  port := []
  schedule := []
  answers := []
  draws := 0
  epoch := 0

end Sys2Proof.Machine
end

