-- ==== Sys2Proof/Machine/Flags.lean ====
section
/-! DEFINITION. The STATUS flags (10_state.md R30) and the exceptions that set them (60_exceptions.md R260).
The block has no condition codes (10_state.md R46). -/

namespace Sys2Proof.Machine

/-- The block's exceptions, codes 0 to 7 (60_exceptions.md R260). -/
inductive BlockException where
  | txFail | rxTrunc | allocFail | aborted | cfgLocked | badReg | illegalCmd | cfgInvalid
  deriving DecidableEq, Repr

/-- "The code of a block exception is its STATUS bit number" (60_exceptions.md R260). -/
def BlockException.code : BlockException → Nat
  | .txFail => 0
  | .rxTrunc => 1
  | .allocFail => 2
  | .aborted => 3
  | .cfgLocked => 4
  | .badReg => 5
  | .illegalCmd => 6
  | .cfgInvalid => 7

/-- The STATUS bit of an exception. -/
def BlockException.bit (e : BlockException) : BitVec 8 := 1#8 <<< e.code

/-- The exceptions that end the acquisition (60_exceptions.md R273). -/
def BlockException.fatal : BlockException → Bool
  | .txFail => false
  | .rxTrunc => false
  | .allocFail => true
  | .aborted => true
  | .cfgLocked => false
  | .badReg => false
  | .illegalCmd => false
  | .cfgInvalid => false

/-- The codes of the host-side exceptions (60_exceptions.md R260). -/
def HostException.code : HostException → Nat
  | .protocolMismatch => 8
  | .timeout => 9
  | .hostConnectionError => 10

/-- Set the sticky bit of `e` (10_state.md R30). -/
def setStatus (e : BlockException) (s : State) : State := { s with status := s.status ||| e.bit }

/-- Write-1-to-clear: `STATUS <- STATUS AND NOT v[7:0]` (10_state.md R30). -/
def clearStatus (v : Word64) (s : State) : State := { s with status := s.status &&& ~~~ (v.setWidth 8) }

end Sys2Proof.Machine
end

