-- ==== Sys2Proof/Machine/Bits.lean ====
section
/-! DEFINITION. Byte order and bit fields (00_scope.md R7, R8). -/

namespace Sys2Proof.Machine

/-- `ceil_div(a, b)` (00_scope.md R7). -/
def ceilDiv (a b : Nat) : Nat := (a + b - 1) / b

/-- `LE(s)`: byte 0 is least significant (00_scope.md R8). -/
def le : List Byte → Nat
  | [] => 0
  | b :: bs => b.toNat + 256 * le bs

/-- `LE_bytes_N(v)`: the N bytes whose `LE` is `v mod 2^(8N)` (00_scope.md R8). -/
def leBytes : Nat → Nat → List Byte
  | 0, _ => []
  | n + 1, v => BitVec.ofNat 8 v :: leBytes n (v / 256)

/-- `2^v mod 2^64`, without computing `2^v` (10_state.md R25, R38). -/
def twoPowMod64 (v : Nat) : Word64 := if v < 64 then 1#64 <<< v else 0#64

end Sys2Proof.Machine
end

