-- ==== Sys2Proof/Machine/Memory.lean ====
section
/-! DEFINITION. Sparse storage (20_memory.md R60): one canonical form, reads, writes, and writes of a run. -/

namespace Sys2Proof.Machine

/-- The canonical form: addresses strictly rising. An unlisted address reads as no value (`none`), so no entry
equals what an unlisted address reads as. -/
abbrev Store.wf {α : Type} (m : Store α) : Prop := m.Pairwise (fun x y => x.1 < y.1)

/-- The canonical form of a byte space. -/
abbrev Memory.wf (m : Memory) : Prop := Store.wf m

/-- The value written at `a`; `none` where nothing has been written since the contents last became unspecified. -/
def Store.read {α : Type} : Store α → Nat → Option α
  | [], _ => none
  | (k, v) :: m, a => if k = a then some v else if a < k then none else Store.read m a

/-- Write `v` at `a`, keeping the canonical form. -/
def Store.write {α : Type} : Store α → Nat → α → Store α
  | [], a, v => [(a, v)]
  | (k, w) :: m, a, v =>
    if k = a then (a, v) :: m
    else if a < k then (a, v) :: (k, w) :: m
    else (k, w) :: Store.write m a v

/-- `MemWrite(SPACE, addr, n, s)` (00_scope.md R9): the values of `vs` at `a`, `a+1`, … -/
def Store.writeRun {α : Type} : Store α → Nat → List α → Store α
  | m, _, [] => m
  | m, a, v :: vs => Store.writeRun (Store.write m a v) (a + 1) vs

end Sys2Proof.Machine
end

