-- ==== Sys2Proof/Machine/Operands.lean ====
section
/-! DEFINITION. The register map (10_state.md R23–R41) and the values the registers read as. -/

namespace Sys2Proof.Machine

/-- The defined registers (10_state.md R23). -/
inductive Reg where
  | dataWidth | addrWidth | rlcWidth | limitSamples | captureRatio
  | state | status | transferredBytes | totalSamples | delayRaw | delayValue
  | dataWidthBytes | addrWidthBytes | rawDataWidthBytes | limitSamplesMax | budgetBytes | rxEn
  deriving DecidableEq, Repr

/-- The address of a register (10_state.md R23). -/
def Reg.addr : Reg → Byte
  | .dataWidth => 0x00
  | .addrWidth => 0x01
  | .rlcWidth => 0x02
  | .limitSamples => 0x03
  | .captureRatio => 0x04
  | .state => 0x10
  | .status => 0x11
  | .transferredBytes => 0x12
  | .totalSamples => 0x13
  | .delayRaw => 0x14
  | .delayValue => 0x15
  | .dataWidthBytes => 0x16
  | .addrWidthBytes => 0x17
  | .rawDataWidthBytes => 0x18
  | .limitSamplesMax => 0x19
  | .budgetBytes => 0x1A
  | .rxEn => 0x1B

/-- The seventeen rows of the map, in its order (10_state.md R23). -/
def Reg.all : List Reg :=
  [.dataWidth, .addrWidth, .rlcWidth, .limitSamples, .captureRatio, .state, .status, .transferredBytes,
   .totalSamples, .delayRaw, .delayValue, .dataWidthBytes, .addrWidthBytes, .rawDataWidthBytes,
   .limitSamplesMax, .budgetBytes, .rxEn]

/-- The register at an address; `none` at a reserved address (10_state.md R41). -/
def regAt (a : Byte) : Option Reg := Reg.all.find? (fun r => r.addr == a)

/-- `DATA_WIDTH` as a natural. -/
def State.dw (s : State) : Nat := s.dataWidth.toNat

/-- `ADDR_WIDTH` as a natural. -/
def State.aw (s : State) : Nat := s.addrWidth.toNat

/-- `C = RLC_WIDTH` (43_rlc_decoder.md). -/
def State.cw (s : State) : Nat := s.rlcWidth.toNat

/-- `L = LIMIT_SAMPLES` (43_rlc_decoder.md). -/
def State.limit (s : State) : Nat := s.limitSamples.toNat

/-- `DATA_WIDTH_BYTES`, always `ceil_div(DATA_WIDTH, 8)` (10_state.md R35). -/
def State.dataWidthBytes (s : State) : Nat := ceilDiv s.dw 8

/-- `ADDR_WIDTH_BYTES` (10_state.md R36). -/
def State.addrWidthBytes (s : State) : Nat := ceilDiv s.aw 8

/-- `RAW_DATA_WIDTH_BYTES`, always `ceil_div(DATA_WIDTH + RLC_WIDTH, 8)` (10_state.md R37). -/
def State.rawDataWidthBytes (s : State) : Nat := ceilDiv (s.dw + s.cw) 8

/-- `LIMIT_SAMPLES_MAX = 2^ADDR_WIDTH`, an unbounded natural (10_state.md R38). -/
def State.limitSamplesMax (s : State) : Nat := 2 ^ s.aw

/-- `BUDGET_BYTES = LIMIT_SAMPLES · RAW_DATA_WIDTH_BYTES` (10_state.md R39). -/
def State.budgetBytes (s : State) : Nat := s.limit * s.rawDataWidthBytes

/-- An acquisition is active exactly when `STATE ∈ {1, 2, 3}` (10_state.md R29). -/
def State.active (s : State) : Bool :=
  match s.state with
  | .idle => false
  | .accumulating => true
  | .decoding => true
  | .delivering => true
  | .done => false

/-- The encoding of `STATE` (10_state.md R29). -/
def stateCode : DecoderState → BitVec 3
  | .idle => 0
  | .accumulating => 1
  | .decoding => 2
  | .delivering => 3
  | .done => 4

/-- What READ_REG returns for a defined register: `zext_64(reg[a] mod 2^64)` (43_rlc_decoder.md R213). -/
def readReg (r : Reg) (s : State) : Word64 :=
  match r with
  | .dataWidth => s.dataWidth.setWidth 64
  | .addrWidth => s.addrWidth.setWidth 64
  | .rlcWidth => s.rlcWidth.setWidth 64
  | .limitSamples => s.limitSamples
  | .captureRatio => s.captureRatio.setWidth 64
  | .state => (stateCode s.state).setWidth 64
  | .status => s.status.setWidth 64
  | .transferredBytes => BitVec.ofNat 64 s.transferredBytes
  | .totalSamples => BitVec.ofNat 64 s.totalSamples
  | .delayRaw => BitVec.ofNat 64 s.delayRaw
  | .delayValue => BitVec.ofNat 64 s.delayValue
  | .dataWidthBytes => BitVec.ofNat 64 s.dataWidthBytes
  | .addrWidthBytes => BitVec.ofNat 64 s.addrWidthBytes
  | .rawDataWidthBytes => BitVec.ofNat 64 s.rawDataWidthBytes
  | .limitSamplesMax => twoPowMod64 s.aw
  | .budgetBytes => BitVec.ofNat 64 s.budgetBytes
  | .rxEn => (BitVec.ofBool s.rxEn).setWidth 64

/-- A write of a configuration register: `reg[a] <- v mod 2^width(a)`, and the side effect of ADDR_WIDTH on
LIMIT_SAMPLES (10_state.md R25; 43_rlc_decoder.md R212). `none` for a register that is no configuration register. -/
def writeConfig (r : Reg) (v : Word64) (s : State) : Option State :=
  match r with
  | .dataWidth => some { s with dataWidth := v.setWidth 32 }
  | .addrWidth =>
    some { s with addrWidth := v.setWidth 32, limitSamples := twoPowMod64 (v.setWidth 32).toNat }
  | .rlcWidth => some { s with rlcWidth := v.setWidth 8 }
  | .limitSamples => some { s with limitSamples := v }
  | .captureRatio => some { s with captureRatio := v.setWidth 8 }
  | .state => none
  | .status => none
  | .transferredBytes => none
  | .totalSamples => none
  | .delayRaw => none
  | .delayValue => none
  | .dataWidthBytes => none
  | .addrWidthBytes => none
  | .rawDataWidthBytes => none
  | .limitSamplesMax => none
  | .budgetBytes => none
  | .rxEn => none

/-- A byte space of the block (20_memory.md R60). -/
def State.space (sp : Space) (s : State) : Memory :=
  match sp with
  | .rawbuf => s.rawbuf
  | .outbuf => s.outbuf

/-- The capacity of a byte space (20_memory.md R60, R76). -/
def State.capacity (sp : Space) (s : State) : Nat :=
  match sp with
  | .rawbuf => s.params.rawCapacityBytes
  | .outbuf => s.params.outCapacityBytes

/-- The byte at an address of a space. Where nothing has been written since the contents became unspecified
it is a draw (93_implementation_defined.md I4–I6). -/
def State.byteAt (sp : Space) (a : Nat) (s : State) : Byte :=
  (Store.read (s.space sp) a).getD (Config.unspecifiedByte s.epoch sp a)

/-- `MemRead(SPACE, addr, n)` (00_scope.md R9). -/
def State.bytesAt (sp : Space) (a n : Nat) (s : State) : List Byte :=
  (List.range n).map (fun k => s.byteAt sp (a + k))

end Sys2Proof.Machine
end

