-- ==== Sys2Proof/Machine/Ops.lean ====
section
/-! DEFINITION. The operations the instructions and the internal steps share: range checks, sink events, taking an
exception, the DONE entry actions, `tx_write`, and the block's reset. -/

namespace Sys2Proof.Machine

/-- Do `n` bytes at `a` lie in the space (20_memory.md R60)? -/
def inSpace (sp : Space) (a n : Nat) (s : State) : Bool := n == 0 || decide (a + n ≤ s.capacity sp)

/-- Go on with `k` if the access lies in the space; an access to an address the space does not have faults. -/
def guardSpace (sp : Space) (a n : Nat) (s : State) (k : Result) : Result :=
  if inSpace sp a n s then k else .fault (.outsideSpace sp (a + n - 1))

/-- `sink(ev)`: the SINK accepts every event at once (10_state.md R20). -/
def sinkEvent (ev : SinkEvent) (s : State) : State := { s with sink := s.sink ++ [ev] }

/-- The contents of RAWBUF, RPT and OUTBUF become unspecified (20_memory.md R77). -/
def releaseBuffers (s : State) : State :=
  { s with rawbuf := [], rpt := [], outbuf := [], epoch := s.epoch + 1 }

/-- The DONE entry actions (43_rlc_decoder.md R224). DELIV_PHASE and OUT_SRC, which R224 does not name and
93_implementation_defined.md I10 leaves open, keep their values (DESIGN CHOICE, notes/assumptions/29.md). -/
def enterDone (s : State) : State :=
  sinkEvent .endOfAcquisition { releaseBuffers s with state := .done, rxEn := false }

/-- Taking an exception (`raise E`, 00_scope.md R9): its STATUS bit is set, and a fatal one performs the DONE entry
actions in the same step (60_exceptions.md R260, R273). Nothing is saved, and there is no return from an
exception: the next ARM starts afresh (60_exceptions.md R274). -/
def takeException (e : BlockException) (s : State) : State :=
  if e.fatal then enterDone (setStatus e s) else setStatus e s

/-- The LINK's answer to the next `tx_write`: listed, or else a draw (20_memory.md R66). -/
def txAnswer (s : State) : Bool := s.answers.head?.getD (Config.linkAnswer s.draws)

/-- The answer has been used. -/
def useAnswer (s : State) : State := { s with answers := s.answers.tail, draws := s.draws + 1 }

/-- `tx_write(b)` with the TX_FAIL of a failed write (20_memory.md R66; 60_exceptions.md R261): on `ok` the byte joins
the TX stream, on `fail` it does not. -/
def txWrite (b : Byte) (s : State) : State :=
  if txAnswer s then { useAnswer s with tx := s.tx ++ [b] } else takeException .txFail (useAnswer s)

/-- The block's reset input (70_reset_and_hazards.md R290): every piece of block state at its reset value.
The streams, the SINK and the inputs to come are no block state and stay (R291); the HOST begins its boot order again
(R292). -/
def resetBlock (s : State) : State :=
  { State.reset with
    params := s.params
    tx := s.tx
    rx := s.rx
    sink := s.sink
    host := s.host.newSession
    port := s.port
    schedule := s.schedule
    answers := s.answers
    draws := s.draws
    epoch := s.epoch + 1 }

end Sys2Proof.Machine
end

