-- ==== Sys2Proof/Machine/Control.lean ====
section
/-! DEFINITION. The host control operations: NOP, WRITE_REG, READ_REG, ARM, ABORT (43_rlc_decoder.md R211–R215). -/

namespace Sys2Proof.Machine

/-- NOP (R211): `skip`. -/
def execNop (s : State) : Result := .next s

/-- The effect of WRITE_REG (R212): a configuration register is written unless an acquisition is active (CFG_LOCKED);
STATUS is write-1-to-clear and never locked; every other address raises BAD_REG and nothing is written. -/
def writeRegister (a : Byte) (v : Word64) (s : State) : State :=
  match regAt a with
  | none => takeException .badReg s
  | some .status => clearStatus v s
  | some r =>
    match writeConfig r v s with
    | some s' => if s.active then takeException .cfgLocked s else s'
    | none => takeException .badReg s

/-- WRITE_REG (R212). -/
def execWriteReg (a : Byte) (v : Word64) (s : State) : Result := .next (writeRegister a v s)

/-- The effect of READ_REG (R213): `RDATA64` takes the register's value, or 0 with BAD_REG at a reserved address. -/
def readRegister (a : Byte) (s : State) : State :=
  match regAt a with
  | some r => { s with rdata64 := readReg r s }
  | none => takeException .badReg { s with rdata64 := 0#64 }

/-- READ_REG (R213). -/
def execReadReg (a : Byte) (s : State) : Result := .next (readRegister a s)

/-- `delay_raw(L, p) = ((L - 1) * p) div 100` in exact integer arithmetic, for `L ≥ 1` and `p ≤ 100`
(42_host_functions.md R200). ARM has checked both when it uses it; the HOST sends a free value outside that range
(`hostDelay`, notes/assumptions/28.md). -/
def delayRawOf (limit ratio : Nat) : Nat := (limit - 1) * ratio / 100

/-- ARM's configuration checks (R214), in order. -/
def State.cfgValid (s : State) : Bool :=
  decide (1 ≤ s.dw) && decide (s.dw ≤ s.params.dataWidthMax) && decide (s.aw ≤ s.params.addrWidthMax)
    && decide (s.cw ≤ s.params.rlcWidthMax) && decide (1 ≤ s.limit) && decide (s.limit ≤ s.limitSamplesMax)
    && decide (s.captureRatio.toNat ≤ 100)

/-- What ARM latches once its checks pass (R214). -/
def armLatch (s : State) : State :=
  { s with
    transferredBytes := 0
    totalSamples := 0
    delayValue := 0
    delayRaw := delayRawOf s.limit s.captureRatio.toNat }

/-- The effect of ARM (R214): the state check, then the configuration checks, then the capacity check, and only the
first that fails raises (60_exceptions.md R272). -/
def armEffect (s : State) : State :=
  if s.active then takeException .illegalCmd s
  else if s.cfgValid then
    if s.params.rawCapacityBytes < s.budgetBytes then takeException .allocFail (armLatch s)
    else { armLatch s with outSrc := .rawbuf, state := .accumulating, rxEn := true }
  else takeException .cfgInvalid s

/-- ARM (R214). -/
def execArm (s : State) : Result := .next (armEffect s)

/-- The effect of ABORT (R215): legal in ACCUMULATING and DECODING only. -/
def abortEffect (s : State) : State :=
  match s.state with
  | .accumulating => takeException .aborted s
  | .decoding => takeException .aborted s
  | .idle => takeException .illegalCmd s
  | .delivering => takeException .illegalCmd s
  | .done => takeException .illegalCmd s

/-- ABORT (R215). -/
def execAbort (s : State) : Result := .next (abortEffect s)

end Sys2Proof.Machine
end

