-- ==== Sys2Proof/Machine/Codec.lean ====
section
/-! DEFINITION. The escape codec (40_escape_codec.md): `enc`, `escape`, the reference de-escaper, and the two framer
operations. -/

namespace Sys2Proof.Machine

/-- `RESET_CODE` (30_encoding.md R96). -/
def resetCode : Byte := 0xEE#8

/-- `ESCAPE_CODE` (30_encoding.md R96). -/
def escapeCode : Byte := 0x55#8

/-- The two byte values the escape rule protects (30_encoding.md R96). -/
def isSentinel (b : Byte) : Bool := b == resetCode || b == escapeCode

/-- `enc(b)` (30_encoding.md R97). -/
def enc (b : Byte) : List Byte := if isSentinel b then [escapeCode, b] else [b]

/-- `escape(s)` (40_escape_codec.md R120). -/
def escapeBytes (bs : List Byte) : List Byte := bs.flatMap enc

/-- The tokens of the reference de-escaper (40_escape_codec.md R126). -/
inductive Token where
  | data (b : Byte)
  | reset
  | pending
  deriving DecidableEq, Repr

/-- `unesc(w)` from mode ESC (`true`) or NORMAL (`false`) (40_escape_codec.md R126). -/
def unescFrom : Bool → List Byte → List Token
  | true, [] => [.pending]
  | false, [] => []
  | true, x :: w => .data x :: unescFrom false w
  | false, x :: w =>
    if x = escapeCode then unescFrom true w
    else if x = resetCode then .reset :: unescFrom false w
    else .data x :: unescFrom false w

/-- `unesc(w)` (40_escape_codec.md R126). -/
def unesc (w : List Byte) : List Token := unescFrom false w

/-- One opcode byte, raw, never escaped (40_escape_codec.md R122). -/
def sendRaw (c : Byte) (s : State) : State := txWrite c s

/-- One payload byte through the escape rule: the escape code first, then the original byte, each write failing on
its own (40_escape_codec.md R123, R124). -/
def sendPayload (b : Byte) (s : State) : State :=
  if isSentinel b then txWrite b (txWrite escapeCode s) else txWrite b s

end Sys2Proof.Machine
end

