-- ==== Sys2Proof/Machine/Framer.lean ====
section
/-! DEFINITION. The framer's host operations: SEND_OPCODE and SEND_ESCAPED (40_escape_codec.md). -/

namespace Sys2Proof.Machine

/-- SEND_OPCODE (40_escape_codec.md R122), in every STATE, any byte value (30_encoding.md R99). -/
def execSendOpcode (c : Byte) (s : State) : Result := .next (sendRaw c s)

/-- SEND_ESCAPED (40_escape_codec.md R123), in every STATE. -/
def execSendEscaped (b : Byte) (s : State) : Result := .next (sendPayload b s)

end Sys2Proof.Machine
end

