-- ==== Sys2Proof/Machine/WireOpcodes.lean ====
section
/-! DEFINITION. The twenty wire opcodes (41_command_frames.md R140–R159). "The framer does not interpret opcodes: it
sends every one raw": each is `OPC <its byte>`. The frames built from them and the host's reading of the replies are
in Machine/Frames.lean and Machine/HostAgent.lean. -/

namespace Sys2Proof.Machine

/-- reset (R140): the wire byte 0xEE, raw. -/
def execReset (s : State) : Result := .next (sendRaw 0xEE#8 s)

/-- escape (R141): the wire byte 0x55, raw. A bare prefix: the receiver takes the next wire byte as a literal (70_reset_and_hazards.md R297). -/
def execEscape (s : State) : Result := .next (sendRaw 0x55#8 s)

/-- get-bus-widths (R142): the wire byte 0xAA, raw. -/
def execGetBusWidths (s : State) : Result := .next (sendRaw 0xAA#8 s)

/-- get-id (R143): the wire byte 0xBB, raw. -/
def execGetId (s : State) : Result := .next (sendRaw 0xBB#8 s)

/-- get-features (R144): the wire byte 0x10, raw. -/
def execGetFeatures (s : State) : Result := .next (sendRaw 0x10#8 s)

/-- get-rlc-width (R145): the wire byte 0x60, raw. -/
def execGetRlcWidth (s : State) : Result := .next (sendRaw 0x60#8 s)

/-- get-channel-names (R146): the wire byte 0x70, raw. The channel count that follows it is a SEND_ESCAPED of its own. -/
def execGetChannelNames (s : State) : Result := .next (sendRaw 0x70#8 s)

/-- get-sample-rate (R147): the wire byte 0x80, raw. -/
def execGetSampleRate (s : State) : Result := .next (sendRaw 0x80#8 s)

/-- start (R148): the wire byte 0xFE, raw. -/
def execStart (s : State) : Result := .next (sendRaw 0xFE#8 s)

/-- configure-LA (R149): the wire byte 0x0F, raw. -/
def execConfigureLA (s : State) : Result := .next (sendRaw 0x0F#8 s)

/-- LA-delay-sub (R150): the wire byte 0x1F, raw. -/
def execLaDelaySub (s : State) : Result := .next (sendRaw 0x1F#8 s)

/-- configure-trigger (R151): the wire byte 0xF0, raw. -/
def execConfigureTrigger (s : State) : Result := .next (sendRaw 0xF0#8 s)

/-- trigger-masks-group (R152): the wire byte 0xF1, raw. -/
def execTriggerMasksGroup (s : State) : Result := .next (sendRaw 0xF1#8 s)

/-- trigger-masks-last-group (R153): the wire byte 0xF9, raw. -/
def execTriggerMasksLastGroup (s : State) : Result := .next (sendRaw 0xF9#8 s)

/-- trigger-mask-sel (R154): the wire byte 0xF3, raw. -/
def execTriggerMaskSel (s : State) : Result := .next (sendRaw 0xF3#8 s)

/-- trigger-value-sel (R155): the wire byte 0xF7, raw. -/
def execTriggerValueSel (s : State) : Result := .next (sendRaw 0xF7#8 s)

/-- trigger-mask-last-sel (R156): the wire byte 0xFB, raw. -/
def execTriggerMaskLastSel (s : State) : Result := .next (sendRaw 0xFB#8 s)

/-- trigger-value-last-sel (R157): the wire byte 0xFF, raw. -/
def execTriggerValueLastSel (s : State) : Result := .next (sendRaw 0xFF#8 s)

/-- edge-select (R158): the wire byte 0xF5, raw. -/
def execEdgeSelect (s : State) : Result := .next (sendRaw 0xF5#8 s)

/-- edge-set (R159): the wire byte 0xF6, raw. -/
def execEdgeSet (s : State) : Result := .next (sendRaw 0xF6#8 s)

end Sys2Proof.Machine
end

