-- ==== Sys2Proof/Machine/Dispatch.lean ====
section
/-! DEFINITION. One arm per constructor of Instr: each calls the meaning of its instruction. -/

namespace Sys2Proof.Machine

/-- The meaning of an instruction. -/
def exec (i : Instr) (s : State) : Host.Outcome State Fault Refusal :=
  match i with
  | .nop => Sys2Proof.Machine.execNop s
  | .sendOpcode c => Sys2Proof.Machine.execSendOpcode c s
  | .sendEscaped b => Sys2Proof.Machine.execSendEscaped b s
  | .arm => Sys2Proof.Machine.execArm s
  | .abort => Sys2Proof.Machine.execAbort s
  | .writeReg a v => Sys2Proof.Machine.execWriteReg a v s
  | .readReg a => Sys2Proof.Machine.execReadReg a s
  | .reset => Sys2Proof.Machine.execReset s
  | .escape => Sys2Proof.Machine.execEscape s
  | .getBusWidths => Sys2Proof.Machine.execGetBusWidths s
  | .getId => Sys2Proof.Machine.execGetId s
  | .getFeatures => Sys2Proof.Machine.execGetFeatures s
  | .getRlcWidth => Sys2Proof.Machine.execGetRlcWidth s
  | .getChannelNames => Sys2Proof.Machine.execGetChannelNames s
  | .getSampleRate => Sys2Proof.Machine.execGetSampleRate s
  | .start => Sys2Proof.Machine.execStart s
  | .configureLA => Sys2Proof.Machine.execConfigureLA s
  | .laDelaySub => Sys2Proof.Machine.execLaDelaySub s
  | .configureTrigger => Sys2Proof.Machine.execConfigureTrigger s
  | .triggerMasksGroup => Sys2Proof.Machine.execTriggerMasksGroup s
  | .triggerMasksLastGroup => Sys2Proof.Machine.execTriggerMasksLastGroup s
  | .triggerMaskSel => Sys2Proof.Machine.execTriggerMaskSel s
  | .triggerValueSel => Sys2Proof.Machine.execTriggerValueSel s
  | .triggerMaskLastSel => Sys2Proof.Machine.execTriggerMaskLastSel s
  | .triggerValueLastSel => Sys2Proof.Machine.execTriggerValueLastSel s
  | .edgeSelect => Sys2Proof.Machine.execEdgeSelect s
  | .edgeSet => Sys2Proof.Machine.execEdgeSet s

end Sys2Proof.Machine
end

