-- ==== Sys2Proof/Machine/Acquisition.lean ====
section
/-! DEFINITION. The decoder's own steps: RX_READY, DECODE and the DELIVER steps (43_rlc_decoder.md R216–R224). -/

namespace Sys2Proof.Machine

/-! ### Accumulation -/

/-- RX_READY with the chunk `c` already taken off the RX stream (R216): as much as the budget leaves room for is kept
at offset TRANSFERRED_BYTES, the excess is dropped with RX_TRUNC, and a full budget moves to DECODING. -/
def takeChunk (c : List Byte) (s : State) : State :=
  let k := min c.length (s.budgetBytes - s.transferredBytes)
  let s1 := { s with
    rawbuf := Store.writeRun s.rawbuf s.transferredBytes (c.take k)
    transferredBytes := s.transferredBytes + k }
  let s2 := if k < c.length then takeException .rxTrunc s1 else s1
  if s2.transferredBytes = s2.budgetBytes then { s2 with state := .decoding } else s2

/-- The size of a readiness event's chunk: at most CHUNK_MAX and at most what is available (R216). -/
def chunkSize (n : Nat) (s : State) : Nat := min n (min s.params.chunkMax s.rx.length)

/-- RX_READY (R216): enabled only in ACCUMULATING with `RX_EN = 1`; otherwise the bytes stay in the RX stream. -/
def rxReady (n : Nat) (s : State) : Result :=
  if s.state = .accumulating ∧ s.rxEn = true then
    let c := s.rx.take (chunkSize n s)
    guardSpace .rawbuf s.transferredBytes (min c.length (s.budgetBytes - s.transferredBytes)) s
      (.next (takeChunk c { s with rx := s.rx.drop (chunkSize n s) }))
  else .next s

/-! ### Decoding -/

/-- Raw sample `i` (30_encoding.md R103). -/
def State.rawSample (i : Nat) (s : State) : List Byte :=
  s.bytesAt .rawbuf (i * s.rawDataWidthBytes) s.rawDataWidthBytes

/-- `repeats(W) = (W mod 2^C) + 1` (30_encoding.md R101). -/
def repeatsOf (c : Nat) (raw : List Byte) : Nat := le raw % 2 ^ c + 1

/-- Byte `j` of a raw sample, or past its end a draw, here `past j` (30_encoding.md R102). -/
def windowByteAt (raw : List Byte) (past : Nat → Byte) (j : Nat) : Byte := raw[j]?.getD (past j)

/-- The decoded payload of a raw sample: the bit window of `d` bytes from bit `c` on (30_encoding.md R102). -/
def payloadOf (c d : Nat) (raw : List Byte) (past : Nat → Byte) : List Byte :=
  (List.range d).map (fun k =>
    if c % 8 = 0 then windowByteAt raw past (c / 8 + k)
    else windowByteAt raw past (c / 8 + k) >>> (c % 8)
      ||| windowByteAt raw past (c / 8 + k + 1) <<< (8 - c % 8))

/-- The repeat counts of all raw samples (R218). -/
def State.repeatCounts (s : State) : List Nat :=
  (List.range s.limit).map (fun i => repeatsOf s.cw (s.rawSample i))

/-- The payload of raw sample `i`; its draws are its own, and the same in all its copies (R219; DESIGN CHOICE,
notes/assumptions/12.md). -/
def State.payload (i : Nat) (s : State) : List Byte :=
  payloadOf s.cw s.dataWidthBytes (s.rawSample i) (Config.windowByte s.epoch i)

/-- The decoded buffer: each payload once, followed by `repeats - 1` verbatim copies (R219; 30_encoding.md R104). -/
def State.expansion (s : State) : List Byte :=
  (List.range s.limit).flatMap (fun i =>
    (List.replicate (repeatsOf s.cw (s.rawSample i)) (s.payload i)).flatten)

/-- DECODE completion (R220). -/
def completeDecode (s : State) : State :=
  { s with state := .delivering, delivPhase := if 0 < s.delayValue then .pre else .trig }

/-- DECODE with the run-length coder off (R217). -/
def decodePlain (s : State) : State :=
  completeDecode { s with totalSamples := s.limit, delayValue := s.delayRaw, outSrc := .rawbuf }

/-- DECODE with the run-length coder on, once both capacity checks have passed (R218, R219). -/
def decodeExpanded (s : State) : State :=
  completeDecode { s with
    rpt := Store.writeRun s.rpt 0 s.repeatCounts
    outbuf := Store.writeRun s.outbuf 0 s.expansion
    totalSamples := s.repeatCounts.sum
    delayValue := (s.repeatCounts.take s.delayRaw).sum
    outSrc := .outbuf }

/-- DECODE with the run-length coder on (R218, R219): the repeat table's capacity, then the output's. -/
def decodeRlc (s : State) : Result :=
  if s.params.rptCapacityEntries < s.limit then .next (takeException .allocFail s)
  else guardSpace .rawbuf 0 (s.limit * s.rawDataWidthBytes) s
    (if s.params.outCapacityBytes < s.repeatCounts.sum * s.dataWidthBytes then
      .next (takeException .allocFail s)
    else .next (decodeExpanded s))

/-- DECODE (R217, R218). -/
def decodeStep (s : State) : Result := if s.cw = 0 then .next (decodePlain s) else decodeRlc s

/-! ### Delivery -/

/-- Bytes of `OUT_SRC` for the SINK: decoded samples `j` to `j + n - 1` (20_memory.md R70). -/
def logicEvent (j n : Nat) (s : State) : SinkEvent :=
  .logic (s.bytesAt s.outSrc (j * s.dataWidthBytes) (n * s.dataWidthBytes)) s.dataWidthBytes

/-- DELIVER_PRE (R221). -/
def deliverPre (s : State) : Result :=
  guardSpace s.outSrc 0 (s.delayValue * s.dataWidthBytes) s
    (.next { sinkEvent (logicEvent 0 s.delayValue s) s with delivPhase := .trig })

/-- DELIVER_TRIGGER (R222). -/
def deliverTrigger (s : State) : Result := .next { sinkEvent .trigger s with delivPhase := .post }

/-- DELIVER_POST (R223). -/
def deliverPost (s : State) : Result :=
  guardSpace s.outSrc (s.delayValue * s.dataWidthBytes)
    ((s.totalSamples - s.delayValue) * s.dataWidthBytes) s
    (.next (enterDone (sinkEvent (logicEvent s.delayValue (s.totalSamples - s.delayValue) s) s)))

/-- The delivery step that `DELIV_PHASE` selects (R221–R223). -/
def deliverStep (s : State) : Result :=
  match s.delivPhase with
  | .pre => deliverPre s
  | .trig => deliverTrigger s
  | .post => deliverPost s

/-- The decoder's enabled internal step (R225); in a state that enables none, the turn passes. -/
def internalStep (s : State) : Result :=
  match s.state with
  | .idle => .next s
  | .accumulating => .next s
  | .decoding => decodeStep s
  | .delivering => deliverStep s
  | .done => .next s

end Sys2Proof.Machine
end

