-- ==== Sys2Proof/Machine/Frames.lean ====
section
/-! DEFINITION. The host programs: the assembler lines of 30_encoding.md R108 and the command frames of
41_command_frames.md R146 and R160–R165, as items for the command port. -/

namespace Sys2Proof.Machine

/-- `OPC 0xHH`. -/
def opc (c : Byte) : Command := encode (.sendOpcode c)

/-- `ESC 0xHH`. -/
def esc (b : Byte) : Command := encode (.sendEscaped b)

/-- `WREG <reg>, <value>`, a value that does not fit DATA64 being taken mod 2^64 (DESIGN CHOICE, notes/assumptions/33.md). -/
def wreg (r : Reg) (v : Nat) : Command := encode (.writeReg r.addr (BitVec.ofNat 64 v))

/-- `RREG <reg>`. -/
def rreg (r : Reg) : Command := encode (.readReg r.addr)

/-- `ESCSEQ b0, …, bn` (40_escape_codec.md R121). -/
def escSeq (bs : List Byte) : List Command := bs.map esc

/-- `FRAME o1, …, om | b0, …, bn`. -/
def frame (opcodes payload : List Byte) : List Command := opcodes.map opc ++ escSeq payload

/-- The trigger vector frame for group selector `g` and vector selector `sel`: most significant byte first (R160). -/
def trigVec (g sel : Byte) (v : List Byte) : List Command := frame [0xF0#8, g, sel] v.reverse

/-- The five trigger frames, in their fixed order (R161). -/
def triggerFrames (v : TriggerVectors) : List Command :=
  trigVec 0xF1#8 0xF3#8 v.mask ++ trigVec 0xF1#8 0xF7#8 v.value ++ trigVec 0xF9#8 0xFB#8 v.maskLast
    ++ trigVec 0xF9#8 0xFF#8 v.valueLast ++ trigVec 0xF5#8 0xF6#8 v.edgeMask

/-- The bytes of the delay frame: most significant first (R162; 90_conflicts.md C1). -/
def delayBytes (a d : Nat) : List Byte := (leBytes a d).reverse

/-- The delay frame (R162). -/
def delayFrame (a d : Nat) : List Command := frame [0x0F#8, 0x1F#8] (delayBytes a d)

/-- `FRAME 0x70 | DATA_WIDTH` (R146). -/
def channelNamesFrame (dataWidth : Nat) : List Command := frame [0x70#8] [BitVec.ofNat 8 dataWidth]

/-- The acquisition start sequence: five trigger frames, the delay frame, ARM, start (R164). -/
def startSequence (v : TriggerVectors) (a d : Nat) : List Command :=
  triggerFrames v ++ delayFrame a d ++ [encode .arm, opc 0xFE#8]

/-- The bytes an instruction puts on the wire when every write answers `ok`
(40_escape_codec.md R122, R123; 41_command_frames.md R140–R159). -/
def wireOf : Instr → List Byte
  | .nop => []
  | .sendOpcode c => [c]
  | .sendEscaped b => enc b
  | .arm => []
  | .abort => []
  | .writeReg _ _ => []
  | .readReg _ => []
  | .reset => [0xEE#8]
  | .escape => [0x55#8]
  | .getBusWidths => [0xAA#8]
  | .getId => [0xBB#8]
  | .getFeatures => [0x10#8]
  | .getRlcWidth => [0x60#8]
  | .getChannelNames => [0x70#8]
  | .getSampleRate => [0x80#8]
  | .start => [0xFE#8]
  | .configureLA => [0x0F#8]
  | .laDelaySub => [0x1F#8]
  | .configureTrigger => [0xF0#8]
  | .triggerMasksGroup => [0xF1#8]
  | .triggerMasksLastGroup => [0xF9#8]
  | .triggerMaskSel => [0xF3#8]
  | .triggerValueSel => [0xF7#8]
  | .triggerMaskLastSel => [0xFB#8]
  | .triggerValueLastSel => [0xFF#8]
  | .edgeSelect => [0xF5#8]
  | .edgeSet => [0xF6#8]

/-- The wire bytes of an item, all writes ok: an illegal word sends nothing (30_encoding.md R93), and an unlisted wire
byte goes out raw (R99; notes/assumptions/4.md). -/
def wireOfItem (c : Command) : List Byte :=
  match decode c with
  | .ok i => wireOf i
  | .error (.reservedHop _) => []
  | .error (.nonzeroArg _ _) => []
  | .error (.unlistedOpcode b) => [b]

/-- The wire bytes of a host program, all writes ok. -/
def wireOfProgram (p : List Command) : List Byte := p.flatMap wireOfItem

/-! ### The device's frame grammar (R165), a reference function: the DEVICE is no part of the block. -/

/-- One frame as the device reads it: its opcodes and its payload after de-escaping (R165). -/
structure DeviceFrame where
  opcodes : List Byte
  payload : List Byte
  deriving DecidableEq, Repr

/-- Where the device stands in a frame. `lost` is outside the grammar of R165. -/
inductive ScanMode where
  | frameStart
  | groupSel
  | vectorSel (g : Byte)
  | delaySub
  | payload (opcodes : List Byte) (got : List Byte) (missing : Nat)
  | lost
  deriving DecidableEq, Repr

/-- A frame whose opcodes are known and whose payload has `n` bytes to come. -/
def openFrame (opcodes : List Byte) (n : Nat) : List DeviceFrame × ScanMode :=
  if n = 0 then ([⟨opcodes, []⟩], .frameStart) else ([], .payload opcodes [] n)

/-- One received token (R165), for a device that holds `D = d` and `A = a`: the frames it completes, and where the
device then stands. The tokens of 40_escape_codec.md R126 do not tell the literal byte of an escape pair from a bare
one, so in an opcode position both are read as an opcode (DESIGN CHOICE, notes/assumptions/27.md). No source says what a
device does with an unlisted byte (30_encoding.md R99): here it is read as any other opcode at a frame start, and every
byte as a selector (DESIGN CHOICE, notes/assumptions/30.md). -/
def scanToken (d a : Nat) : ScanMode → Token → List DeviceFrame × ScanMode
  | .frameStart, .data o =>
    if o = 0xF0#8 then ([], .groupSel)
    else if o = 0x0F#8 then ([], .delaySub)
    else if o = 0x70#8 then openFrame [o] 1
    else openFrame [o] 0
  | .frameStart, .reset => ([⟨[resetCode], []⟩], .frameStart)
  | .groupSel, .data g => ([], .vectorSel g)
  | .vectorSel g, .data sel => openFrame [0xF0#8, g, sel] d
  | .delaySub, .data o => if o = 0x1F#8 then openFrame [0x0F#8, 0x1F#8] a else ([], .lost)
  | .payload os got n, .data b =>
    if n ≤ 1 then ([⟨os, got ++ [b]⟩], .frameStart) else ([], .payload os (got ++ [b]) (n - 1))
  | m, .pending => ([], m)
  | .groupSel, .reset => ([], .lost)
  | .vectorSel _, .reset => ([], .lost)
  | .delaySub, .reset => ([], .lost)
  | .payload _ _ _, .reset => ([], .lost)
  | .lost, .data _ => ([], .lost)
  | .lost, .reset => ([], .lost)

/-- The frames the device reads from a token sequence, and where it ends (R165). -/
def scanTokens (d a : Nat) : ScanMode → List Token → List DeviceFrame × ScanMode
  | m, [] => ([], m)
  | m, t :: ts =>
    let now := scanToken d a m t
    let later := scanTokens d a now.2 ts
    (now.1 ++ later.1, later.2)

/-- The frames the device reads from the wire, from a frame boundary on (40_escape_codec.md R126;
41_command_frames.md R165). -/
def deviceFrames (d a : Nat) (w : List Byte) : List DeviceFrame × ScanMode :=
  scanTokens d a .frameStart (unesc w)

end Sys2Proof.Machine
end

