-- ==== Sys2Proof/Machine/HostFunctions.lean ====
section
/-! DEFINITION. The host-side reference functions: identity, capabilities, trigger translation
(42_host_functions.md R190–R200). -/

namespace Sys2Proof.Machine

/-! ### Capabilities -/

/-- "IDBG" (30_encoding.md R106). -/
def tokenV0 : List Byte := [0x49#8, 0x44#8, 0x42#8, 0x47#8]

/-- "idbg" (30_encoding.md R106). -/
def tokenV1 : List Byte := [0x69#8, 0x64#8, 0x62#8, 0x67#8]

/-- The identity check: exact and case-sensitive; `none` is ProtocolMismatch (R191). -/
def identify (reply : List Byte) : Option ProtocolVersion :=
  if reply = tokenV0 then some .v0 else if reply = tokenV1 then some .v1 else none

/-- The feature flags from the get-features reply, 0 where it failed or, for version 0, was never asked for (R192). -/
def featureFlagsOf (v : ProtocolVersion) (reply : Option (List Byte)) : BitVec 32 :=
  match v with
  | .v0 => 0
  | .v1 => match reply with
    | some b => BitVec.ofNat 32 (le b)
    | none => 0

/-- Bit 1: the run-length coder (30_encoding.md R105). -/
def DeviceCapabilities.hasRlc (c : DeviceCapabilities) : Bool := c.featureFlags.getLsbD 1

/-- Bit 2: the sample-rate augmenter (30_encoding.md R105). -/
def DeviceCapabilities.hasSampleRate (c : DeviceCapabilities) : Bool := c.featureFlags.getLsbD 2

/-- Bit 3: the channel-name augmenter (30_encoding.md R105). -/
def DeviceCapabilities.hasChannelNames (c : DeviceCapabilities) : Bool := c.featureFlags.getLsbD 3

/-- The run-length code width from the get-rlc-width reply, 0 where it failed (R192). -/
def codeWidthOf (reply : Option (List Byte)) : Byte :=
  match reply with
  | some b => BitVec.ofNat 8 (le b)
  | none => 0

/-- The two little-endian 32-bit fields of the get-bus-widths reply, both 0 where it failed (R193, D34). -/
def busWidthsOf (reply : Option (List Byte)) : Nat × Nat :=
  match reply with
  | some b => (le (b.take 4), le ((b.drop 4).take 4))
  | none => (0, 0)

/-- The sample rate from the get-sample-rate reply, unset where it failed (R195). -/
def sampleRateOf (reply : Option (List Byte)) : Option Word64 :=
  reply.map (fun b => BitVec.ofNat 64 (le b))

/-- `data_width_bytes` (R190). -/
def DeviceCapabilities.dataWidthBytes (c : DeviceCapabilities) : Nat := ceilDiv c.dataWidth 8

/-- `addr_width_bytes` (R190). -/
def DeviceCapabilities.addrWidthBytes (c : DeviceCapabilities) : Nat := ceilDiv c.addrWidth 8

/-- `limit_samples_max` (R190). -/
def DeviceCapabilities.limitSamplesMax (c : DeviceCapabilities) : Nat := 2 ^ c.addrWidth

/-- The name of channel `i`: the device's, or "CH" ++ decimal(i) (R194). -/
def DeviceCapabilities.channelName (c : DeviceCapabilities) (i : Nat) : ChannelName :=
  match c.givenNames.find? (fun e => e.1 == i) with
  | some e => .given e.2
  | none => .synthesized ("CH" ++ i.repr)

/-- `channel_names`: one name for each of the `data_width` channels (R190). -/
def DeviceCapabilities.channelNames (c : DeviceCapabilities) : List ChannelName :=
  (List.range c.dataWidth).map c.channelName

/-! ### Trigger translation -/

/-- Five vectors of `d` zero bytes (R193, R197). -/
def zeroVectors (d : Nat) : TriggerVectors :=
  ⟨List.replicate d 0, List.replicate d 0, List.replicate d 0, List.replicate d 0, List.replicate d 0⟩

/-- The five vectors after a translation that failed: `d` bytes each, as R197 has them, and every byte a free value
(R199 states none; DESIGN CHOICE, notes/assumptions/16.md). -/
def vectorsAfterFailure (draw d : Nat) : TriggerVectors :=
  let bytes := fun v => (List.range d).map (Config.vectorByteAfterFailure draw v)
  ⟨bytes 0, bytes 1, bytes 2, bytes 3, bytes 4⟩

/-- `bit = 1 << (c mod 8)` (30_encoding.md R107). -/
def channelBit (c : Nat) : Byte := 1#8 <<< (c % 8)

/-- "set": `vec[byte] <- vec[byte] OR bit` (R198). -/
def setChannel (c : Nat) (v : List Byte) : List Byte := v.modify (c / 8) (fun b => b ||| channelBit c)

/-- "clear": `vec[byte] <- vec[byte] AND NOT bit` (R198). -/
def clearChannel (c : Nat) (v : List Byte) : List Byte := v.modify (c / 8) (fun b => b &&& ~~~ channelBit c)

/-- Channel `c`'s bit of a vector (30_encoding.md R107). -/
def channelOf (v : List Byte) (c : Nat) : Bool := (v.getD (c / 8) 0).getLsbD (c % 8)

/-- One row of the translation table (R198). -/
def applyMatch (k : MatchKind) (c : Nat) (v : TriggerVectors) : TriggerVectors :=
  match k with
  | .one =>
    { v with value := setChannel c v.value, mask := setChannel c v.mask,
             maskLast := clearChannel c v.maskLast, edgeMask := clearChannel c v.edgeMask }
  | .zero =>
    { v with value := clearChannel c v.value, mask := setChannel c v.mask,
             maskLast := clearChannel c v.maskLast, edgeMask := clearChannel c v.edgeMask }
  | .rising =>
    { v with value := setChannel c v.value, valueLast := clearChannel c v.valueLast,
             mask := setChannel c v.mask, maskLast := setChannel c v.maskLast,
             edgeMask := clearChannel c v.edgeMask }
  | .falling =>
    { v with value := clearChannel c v.value, valueLast := setChannel c v.valueLast,
             mask := setChannel c v.mask, maskLast := setChannel c v.maskLast,
             edgeMask := clearChannel c v.edgeMask }
  | .edge =>
    { v with mask := clearChannel c v.mask, maskLast := clearChannel c v.maskLast,
             edgeMask := setChannel c v.edgeMask }

/-- One specification: a disabled one is "skipped entirely", and a channel at or past `data_width` fails the
translation (R199). -/
def applySpec (dataWidth : Nat) (v : TriggerVectors) (sp : TriggerSpec) : Option TriggerVectors :=
  if sp.enabled then
    if sp.channel < dataWidth then some (applyMatch sp.kind sp.channel v) else none
  else some v

/-- The translation from given vectors: the specifications in order (R198). -/
def translateFrom (dataWidth : Nat) (v : TriggerVectors) : List TriggerSpec → Option TriggerVectors
  | [] => some v
  | sp :: rest =>
    match applySpec dataWidth v sp with
    | some v' => translateFrom dataWidth v' rest
    | none => none

/-- The translation: the vectors are cleared first (R197), then the specifications apply in order (R198). -/
def translate (dataWidth : Nat) (specs : List TriggerSpec) : Option TriggerVectors :=
  translateFrom dataWidth (zeroVectors (ceilDiv dataWidth 8)) specs

end Sys2Proof.Machine
end

