-- ==== Sys2Proof/Machine/HostAgent.lean ====
section
/-! DEFINITION. The HOST as an agent, in its boot order (70_reset_and_hazards.md R292): its negotiation, its blocking
reads, the configuration of the block, the start of an acquisition and the reading of its results
(41_command_frames.md R163, R164; 42_host_functions.md R191–R201). What it wants done by the block it puts on its
command port. -/

namespace Sys2Proof.Machine

/-! ### Blocking reads -/

/-- How a blocking read of `n` bytes goes: it waits while fewer are there, returns exactly the requested bytes, or
fails (42_host_functions.md, opening; 60_exceptions.md R269). -/
inductive ReadResult where
  | waits
  | got (bytes rest : List Byte)
  | failed (e : HostException) (rest : List Byte)
  deriving DecidableEq, Repr

/-- The host's blocking read of `n` bytes from the RX stream (20_memory.md R65). -/
def blockingRead (n : Nat) (a : ReadAnswer) (rx : List Byte) : ReadResult :=
  match a with
  | .answered => if n ≤ rx.length then .got (rx.take n) (rx.drop n) else .waits
  | .timedOut lost => .failed .timeout (rx.drop (min lost n))
  | .connectionError lost => .failed .hostConnectionError (rx.drop (min lost n))

/-- The length of the reply (41_command_frames.md R142–R147). -/
def replyLength : Query → Nat
  | .identity => 4
  | .features => 4
  | .busWidths => 8
  | .rlcWidth => 1
  | .nameLength _ => 1
  | .nameBytes _ n => n
  | .sampleRate => 8

/-! ### The negotiation sequence (41_command_frames.md R163) -/

/-- The writes that copy the capabilities into the block, in order (42_host_functions.md R201). -/
def configureBlock (c : DeviceCapabilities) : List Command :=
  [wreg .dataWidth c.dataWidth, wreg .addrWidth c.addrWidth, wreg .rlcWidth c.runlengthCodeWidth.toNat]

/-- The negotiation is over. -/
def finishNegotiation (h : HostState) : HostState × List Command :=
  ({ h with phase := .negotiated }, configureBlock h.caps)

/-- Request 6, get-sample-rate, only if feature bit 2 is set. -/
def askSampleRate (h : HostState) : HostState × List Command :=
  if h.caps.hasSampleRate then ({ h with phase := .awaiting .sampleRate }, [opc 0x80#8])
  else finishNegotiation h

/-- The reply for channel `i`, or request 6 once every channel has been read (42_host_functions.md R194). -/
def nextName (i : Nat) (h : HostState) : HostState × List Command :=
  if i < h.caps.dataWidth then ({ h with phase := .awaiting (.nameLength i) }, []) else askSampleRate h

/-- Request 5, get-channel-names, only if feature bit 3 is set and `data_width ≤ 255`
(42_host_functions.md R194). -/
def askChannelNames (h : HostState) : HostState × List Command :=
  if h.caps.hasChannelNames && decide (h.caps.dataWidth ≤ 255) then
    ((nextName 0 h).1, channelNamesFrame h.caps.dataWidth ++ (nextName 0 h).2)
  else askSampleRate h

/-- Request 4, get-rlc-width, only if feature bit 1 is set; otherwise the code width is 0
(42_host_functions.md R192). -/
def askRlcWidth (h : HostState) : HostState × List Command :=
  if h.caps.hasRlc then ({ h with phase := .awaiting .rlcWidth }, [opc 0x60#8])
  else askChannelNames { h with caps := { h.caps with runlengthCodeWidth := 0 } }

/-- Request 3, get-bus-widths, always. -/
def askBusWidths (h : HostState) : HostState × List Command :=
  ({ h with phase := .awaiting .busWidths }, [opc 0xAA#8])

/-- The identity check failed: negotiation ends (60_exceptions.md R269). -/
def failNegotiation (e : HostException) (h : HostState) : HostState × List Command :=
  ({ h with phase := .failed e, exceptions := h.exceptions ++ [e] }, [])

/-- A failed sub-query is recorded; its default is taken where the reply is used (42_host_functions.md R196). -/
def noteFailure (reply : Except HostException (List Byte)) (h : HostState) : HostState :=
  match reply with
  | .ok _ => h
  | .error e => { h with exceptions := h.exceptions ++ [e] }

/-- The host's step on the reply to `q`: what it records, and the next request or the configuration of the block
(41_command_frames.md R163; 42_host_functions.md R191–R196). -/
def onReply (q : Query) (reply : Except HostException (List Byte)) (h : HostState) : HostState × List Command :=
  match q with
  | .identity =>
    match reply with
    | .error e => failNegotiation e h
    | .ok r =>
      match identify r with
      | none => failNegotiation .protocolMismatch h
      | some .v0 =>
        askBusWidths { h with caps := { h.caps with protocolVersion := .v0, featureFlags := featureFlagsOf .v0 none } }
      | some .v1 =>
        ({ h with caps := { h.caps with protocolVersion := .v1 }, phase := .awaiting .features }, [opc 0x10#8])
  | .features =>
    let h1 := noteFailure reply h
    askBusWidths { h1 with caps := { h1.caps with featureFlags := featureFlagsOf .v1 reply.toOption } }
  | .busWidths =>
    let h1 := noteFailure reply h
    let w := busWidthsOf reply.toOption
    askRlcWidth { h1 with
      caps := { h1.caps with dataWidth := w.1, addrWidth := w.2 }
      vectors := zeroVectors (ceilDiv w.1 8)
      requestedLimit := none }
  | .rlcWidth =>
    let h1 := noteFailure reply h
    askChannelNames { h1 with caps := { h1.caps with runlengthCodeWidth := codeWidthOf reply.toOption } }
  | .nameLength i =>
    match reply with
    | .ok b => ({ h with phase := .awaiting (.nameBytes i (le b)) }, [])
    | .error _ => nextName (i + 1) (noteFailure reply h)
  | .nameBytes i _ =>
    match reply with
    | .ok b => nextName (i + 1) { h with caps := { h.caps with givenNames := h.caps.givenNames ++ [(i, b)] } }
    | .error _ => nextName (i + 1) (noteFailure reply h)
  | .sampleRate =>
    let h1 := noteFailure reply h
    finishNegotiation { h1 with caps := { h1.caps with sampleRate := sampleRateOf reply.toOption } }

/-- Request 1, get-id: the session starts. -/
def startNegotiation (h : HostState) : HostState × List Command :=
  ({ h with phase := .awaiting .identity }, [opc 0xBB#8])

/-- A whole negotiation over a list of replies, and the commands the host issued on the way (R163): the host-side
reference function of source example S8. -/
def negotiate : List (Except HostException (List Byte)) → HostState × List Command → HostState × List Command
  | [], now => now
  | r :: rs, now =>
    match now.1.phase with
    | .awaiting q => negotiate rs ((onReply q r now.1).1, now.2 ++ (onReply q r now.1).2)
    | .notStarted => now
    | .negotiated => now
    | .acquiring _ => now
    | .polling _ => now
    | .collecting _ => now
    | .failed _ => now

/-! ### The host's turns -/

/-- The host has decided: its records change, and its commands join the port. -/
def hostDecides (hc : HostState × List Command) (s : State) : State :=
  { s with host := hc.1, port := s.port ++ hc.2 }

/-- The session's negotiation runs once (42_host_functions.md R190). -/
def hostNegotiate (s : State) : State :=
  match s.host.phase with
  | .notStarted => hostDecides (startNegotiation s.host) s
  | .awaiting _ => s
  | .negotiated => s
  | .acquiring _ => s
  | .polling _ => s
  | .collecting _ => s
  | .failed _ => s

/-- A blocking read of the awaited reply, once the request has been issued (41_command_frames.md R163). It asks nothing of
STATE: where the block has been ARMed meanwhile, the host and the decoder take from the same RX stream
(DESIGN CHOICE, notes/assumptions/32.md). -/
def hostRead (a : ReadAnswer) (s : State) : State :=
  match s.host.phase, s.port with
  | .awaiting q, [] =>
    match blockingRead (replyLength q) a s.rx with
    | .waits => s
    | .got bytes rest => hostDecides (onReply q (.ok bytes) s.host) { s with rx := rest }
    | .failed e rest => hostDecides (onReply q (.error e) s.host) { s with rx := rest }
  | _, _ => s

/-- The optional writes before an acquisition (42_host_functions.md R201). A sample count that does not fit DATA64 is
written mod 2^64 (DESIGN CHOICE, notes/assumptions/33.md). -/
def requestWrites (r : AcquisitionRequest) : List Command :=
  (match r.limit with
    | some n => [wreg .limitSamples n]
    | none => []) ++
  (match r.ratio with
    | some p => [wreg .captureRatio p.toNat]
    | none => [])

/-- The sample count of the acquisition: as asked for now, or before, or `limit_samples_max` (R193, R201). -/
def limitFor (r : AcquisitionRequest) (h : HostState) : Nat :=
  match r.limit with
  | some n => n
  | none => match h.requestedLimit with
    | some n => n
    | none => h.caps.limitSamplesMax

/-- The delay the host sends: `delay_raw` where 42_host_functions.md R200 defines it, elsewhere a free value, for the
frame goes out before ARM refuses such a request (DESIGN CHOICE, notes/assumptions/28.md). -/
def hostDelay (limit ratio draw : Nat) : Nat :=
  if 1 ≤ limit ∧ ratio ≤ 100 then delayRawOf limit ratio else Config.delayOutsideRange draw

/-- The host's part of an acquisition's start: the vectors are computed anew, and unless the translation fails the
writes and the start sequence follow (41_command_frames.md R164; 42_host_functions.md R197–R201), and the host waits
for the end, `mark` SINK events having come before. `draw` stands for the values the spec leaves open. -/
def beginAcquisition (r : AcquisitionRequest) (draw mark : Nat) (h : HostState) : HostState × List Command :=
  match translate h.caps.dataWidth r.specs with
  | none => ({ h with vectors := vectorsAfterFailure draw h.caps.dataWidthBytes, translationFailed := true }, [])
  | some v =>
    ({ h with
        vectors := v
        translationFailed := false
        requestedLimit := match r.limit with
          | some n => some n
          | none => h.requestedLimit
        captureRatio := r.ratio.getD h.captureRatio
        phase := .acquiring mark
        results := ⟨none, none, none⟩ },
     requestWrites r ++ startSequence v h.caps.addrWidthBytes
       (hostDelay (limitFor r h) (r.ratio.getD h.captureRatio).toNat draw))

/-- The start of an acquisition, for a host that has negotiated and has read the results of the acquisition before
(70_reset_and_hazards.md R292). -/
def hostAcquire (r : AcquisitionRequest) (s : State) : State :=
  match s.host.phase with
  | .negotiated => hostDecides (beginAcquisition r s.draws s.sink.length s.host) { s with draws := s.draws + 1 }
  | .notStarted => s
  | .awaiting _ => s
  | .acquiring _ => s
  | .polling _ => s
  | .collecting _ => s
  | .failed _ => s

/-! ### The end of an acquisition (70_reset_and_hazards.md R292, steps 6 and 7) -/

/-- Has the SINK received an END since it had received `mark` events? -/
def endSeen (mark : Nat) (s : State) : Bool := (s.sink.drop mark).contains .endOfAcquisition

/-- The register of a result. -/
def ResultRegister.reg : ResultRegister → Reg
  | .totalSamples => .totalSamples
  | .delayValue => .delayValue
  | .status => .status

/-- Ask for a result. -/
def askResult (r : ResultRegister) (h : HostState) : HostState × List Command :=
  ({ h with phase := .collecting r }, [rreg r.reg])

/-- The result asked for is `v`: record it and ask for the next one; after the last, an acquisition may begin. -/
def takeResult (r : ResultRegister) (v : Word64) (h : HostState) : HostState × List Command :=
  match r with
  | .totalSamples => askResult .delayValue { h with results := { h.results with totalSamples := some v } }
  | .delayValue => askResult .status { h with results := { h.results with delayValue := some v } }
  | .status => ({ h with phase := .negotiated, results := { h.results with status := some v } }, [])

/-- The host waits "for `END` from the SINK, or for `STATE = DONE`", which it reads with READ_REG (60_exceptions.md R271),
and then reads the three results, each once its READ_REG has been issued (notes/assumptions/20.md). The host does not ask
whether its ARM was accepted: after a refused one STATE may still be DONE from an earlier acquisition, and the registers
that one left are then recorded (DESIGN CHOICE, notes/assumptions/31.md). -/
def hostFollow (s : State) : State :=
  match s.host.phase, s.port with
  | .acquiring m, [] =>
    if endSeen m s then hostDecides (askResult .totalSamples s.host) s
    else hostDecides ({ s.host with phase := .polling m }, [rreg .state]) s
  | .polling m, [] =>
    if s.rdata64 = (stateCode .done).setWidth 64 then hostDecides (askResult .totalSamples s.host) s
    else hostDecides ({ s.host with phase := .acquiring m }, []) s
  | .collecting r, [] => hostDecides (takeResult r s.rdata64 s.host) s
  | _, _ => s

/-- Does the item configure or ARM the block: an ARM, or a write of a register 0x00–0x04? -/
def configuresOrArms (c : Command) : Bool :=
  match decode c with
  | .ok .arm => true
  | .ok (.writeReg a _) => decide (a.toNat ≤ 0x04)
  | .ok _ => false
  | .error _ => false

/-- Of `items`, those a host in this phase hands over: all of them (60_exceptions.md R276), but once the identity check
has failed none that would "configure or ARM the block" (60_exceptions.md R269; 90_conflicts.md C6). -/
def allowedItems (p : HostPhase) (items : List Command) : List Command :=
  match p with
  | .failed _ => items.filter (fun c => !configuresOrArms c)
  | .notStarted => items
  | .awaiting _ => items
  | .negotiated => items
  | .acquiring _ => items
  | .polling _ => items
  | .collecting _ => items

/-- The host hands over items of its own choosing (60_exceptions.md R276), as far as its phase allows (R269). -/
def hostIssues (items : List Command) (s : State) : State :=
  hostDecides (s.host, allowedItems s.host.phase items) s

end Sys2Proof.Machine
end

