-- ==== Sys2Proof/Machine/Schedule.lean ====
section
/-! DEFINITION. Whose turn it is, the item the HOST issues, and the moves of the agents other than a host operation
(00_scope.md R10). -/

namespace Sys2Proof.Machine

/-- The next turn: as listed, or else a draw, for "steps of different agents interleave in any order allowed by their
enabling conditions" (00_scope.md R10). -/
def nextTurn (s : State) : Turn :=
  match s.schedule with
  | t :: _ => t
  | [] => Config.freeTurn s.draws

/-- The turn has been taken off the schedule (or drawn). -/
def afterTurn (s : State) : State :=
  match s.schedule with
  | _ :: ts => { s with schedule := ts }
  | [] => { s with draws := s.draws + 1 }

/-- An item that is no instruction: an illegal command word does nothing but raise ILLEGAL_CMD (30_encoding.md R93);
a wire byte outside the list goes out raw all the same (30_encoding.md R99). -/
def rejectItem (e : DecodeError) (s : State) : Result :=
  match e with
  | .reservedHop _ => .next (takeException .illegalCmd s)
  | .nonzeroArg _ _ => .next (takeException .illegalCmd s)
  | .unlistedOpcode b => .next (sendRaw b s)

/-- Bytes from the DEVICE join the RX stream (20_memory.md R65). -/
def deviceSends (bytes : List Byte) (s : State) : State := { s with rx := s.rx ++ bytes }

/-- A turn that is no host operation. An agent with no enabled step passes. -/
def agentTurn (t : Turn) (s : State) : Result :=
  match t with
  | .hostOp => .next s
  | .hostNegotiate => .next (hostNegotiate s)
  | .hostRead a => .next (hostRead a s)
  | .hostAcquire r => .next (hostAcquire r s)
  | .hostFollow => .next (hostFollow s)
  | .hostIssues items => .next (hostIssues items s)
  | .deviceSends bytes => .next (deviceSends bytes s)
  | .rxReady n => rxReady n s
  | .decoderStep => internalStep s
  | .resetInput => .next (resetBlock s)

/-- An item put at the front of the HOST's port, with the HOST's turn to issue it. -/
def placeItem (c : Command) (s : State) : State :=
  { s with port := c :: s.port, schedule := .hostOp :: s.schedule }

end Sys2Proof.Machine
end

