-- ==== Sys2Proof/Machine/Step.lean ====
section
/-! DEFINITION. One step of the machine (00_scope.md R10). -/

namespace Sys2Proof.Machine

/-- Run the item the HOST issues: the instruction it decodes to, or what its being none entails. -/
def runItem (c : Command) (s : State) : Host.Outcome State Fault Refusal :=
  match decode c with
  | .ok i => exec i s
  | .error e => rejectItem e s

/-- A turn: a host operation takes the item at the front of the port, and any other agent makes its move. -/
def takeTurn (t : Turn) (s : State) : Host.Outcome State Fault Refusal :=
  match t, s.port with
  | .hostOp, c :: cs => runItem c { s with port := cs }
  | t, _ => agentTurn t s

/-- One step: the next turn is taken. -/
def step (s : State) : Host.Outcome State Fault Refusal := takeTurn (nextTurn s) (afterTurn s)

/-- `s` with an item whose bits are `w` at the front of the HOST's port and the HOST's turn at the front of the schedule:
the very next step issues exactly it, and leaves the port and the schedule as they were in `s`. -/
def State.withFetchWord (s : State) (nbits w : Nat) : State := placeItem (commandOfBits nbits w) s

end Sys2Proof.Machine
end

