-- ==== Sys2Proof/WellFormed.lean ====
section
/-! DEFINITION. Which terms and which port items are well formed. -/

namespace Sys2Proof

/-- Every operand of every instruction may take any value of its type: "opcode byte, any value",
"payload byte, any value", a register address, a 64-bit value (30_encoding.md R91, R99).
A register address that names no register is legal as an operand; the operation then raises BAD_REG
(10_state.md R41). -/
def Instr.wellFormed : Instr → Bool
  | .nop => true
  | .sendOpcode _ => true
  | .sendEscaped _ => true
  | .arm => true
  | .abort => true
  | .writeReg _ _ => true
  | .readReg _ => true
  | .reset => true
  | .escape => true
  | .getBusWidths => true
  | .getId => true
  | .getFeatures => true
  | .getRlcWidth => true
  | .getChannelNames => true
  | .getSampleRate => true
  | .start => true
  | .configureLA => true
  | .laDelaySub => true
  | .configureTrigger => true
  | .triggerMasksGroup => true
  | .triggerMasksLastGroup => true
  | .triggerMaskSel => true
  | .triggerValueSel => true
  | .triggerMaskLastSel => true
  | .triggerValueLastSel => true
  | .edgeSelect => true
  | .edgeSet => true

/-- The HOP values that take any ARG8 (30_encoding.md R91). -/
def freeArgHops : List Byte := [0x01#8, 0x02#8, 0x20#8, 0x21#8]

/-- The HOP values whose ARG8 must be 0x00 (30_encoding.md R91, R93). -/
def zeroArgHops : List Byte := [0x00#8, 0x10#8, 0x11#8]

/-- The twenty listed wire opcodes, by value (30_encoding.md R95). -/
def listedOpcodes : List Byte :=
  [0xEE#8, 0x55#8, 0xAA#8, 0xBB#8, 0x10#8, 0x60#8, 0x70#8, 0x80#8, 0xFE#8, 0x0F#8, 0x1F#8, 0xF0#8,
   0xF1#8, 0xF9#8, 0xF3#8, 0xF7#8, 0xFB#8, 0xFF#8, 0xF5#8, 0xF6#8]

/-- The legality of an item, stated apart from the decoder: R93 for a host command word,
R95 for a wire opcode. -/
def Command.wellFormed : Command → Bool
  | .hcw w _ =>
    freeArgHops.contains (hopOf w) || (zeroArgHops.contains (hopOf w) && arg8Of w == 0x00#8)
  | .wire b => listedOpcodes.contains b

end Sys2Proof
end

