-- ==== Sys2Proof/Safety.lean ====
section
/-! DEFINITION. The terms claims are stated in: runs of instructions and of turns, the invariant of the machine, and
what the host puts on the wire. -/

namespace Sys2Proof.Machine

/-- A list of instructions, one after the other, stopping at the first fault or refusal. -/
def execAll : List Instr → State → Result
  | [], s => .next s
  | i :: is, s =>
    match exec i s with
    | .next t => execAll is t
    | .fault f => .fault f
    | .refused r => .refused r

/-- A list of turns, one after the other, stopping at the first fault or refusal. -/
def takeTurns : List Turn → State → Result
  | [], s => .next s
  | t :: ts, s =>
    match takeTurn t s with
    | .next s' => takeTurns ts s'
    | .fault f => .fault f
    | .refused r => .refused r

/-- Every byte of `[0, n)` has been written. -/
def Store.filled {α : Type} (m : Store α) (n : Nat) : Prop := ∀ a, a < n → (Store.read m a).isSome = true

/-- Every listed address is below `n` (20_memory.md R60). -/
def Store.below {α : Type} (m : Store α) (n : Nat) : Prop := ∀ e ∈ m, e.1 < n

/-- The invariant of the machine: the storage is canonical and inside its spaces, RX_EN holds exactly while an acquisition is
active (10_state.md R40), the configuration of an active acquisition passed ARM's checks, the counters are as
10_state.md R31 and 43_rlc_decoder.md R226 say, and the bytes still to be read have been written (20_memory.md R61,
R63). -/
structure State.Inv (s : State) : Prop where
  paramsWf : s.params.wf
  rawbufWf : Store.wf s.rawbuf
  rptWf : Store.wf s.rpt
  outbufWf : Store.wf s.outbuf
  rawbufBelow : Store.below s.rawbuf s.params.rawCapacityBytes
  rptBelow : Store.below s.rpt s.params.rptCapacityEntries
  outbufBelow : Store.below s.outbuf s.params.outCapacityBytes
  rxEnActive : s.rxEn = s.active
  configChecked : s.active = true → s.cfgValid = true
  budgetFits : s.active = true → s.budgetBytes ≤ s.params.rawCapacityBytes
  delayLatched : s.active = true → s.delayRaw = delayRawOf s.limit s.captureRatio.toNat
  accumulatingShort : s.state = .accumulating → s.transferredBytes < s.budgetBytes
  decodingFull : s.state = .decoding ∨ s.state = .delivering → s.transferredBytes = s.budgetBytes
  rawbufFilled : s.active = true → Store.filled s.rawbuf s.transferredBytes
  totalBounds : s.state = .delivering → s.limit ≤ s.totalSamples ∧ s.totalSamples ≤ s.limit * 2 ^ s.cw
  delayInside : s.state = .delivering → s.delayValue + 1 ≤ s.totalSamples
  plainSource : s.state = .delivering → s.cw = 0 → s.outSrc = .rawbuf ∧ s.totalSamples = s.limit
  expandedSource : s.state = .delivering → 0 < s.cw →
    s.outSrc = .outbuf ∧ s.totalSamples * s.dataWidthBytes ≤ s.params.outCapacityBytes ∧
      Store.filled s.outbuf (s.totalSamples * s.dataWidthBytes)
  prePhase : s.state = .delivering → s.delivPhase = .pre → 0 < s.delayValue

/-- Five vectors of `d` bytes each (42_host_functions.md R197; 30_encoding.md R107). -/
def TriggerVectors.sized (v : TriggerVectors) (d : Nat) : Prop :=
  v.mask.length = d ∧ v.value.length = d ∧ v.maskLast.length = d ∧ v.valueLast.length = d ∧ v.edgeMask.length = d

/-- After a failed identity check no item of the port configures or ARMs the block (60_exceptions.md R269). -/
def State.FailedHostHoldsBack (s : State) : Prop :=
  ∀ e, s.host.phase = .failed e → ∀ c ∈ s.port,
    decode c ≠ .ok .arm ∧ ∀ a v, decode c = .ok (.writeReg a v) → 0x04 < a.toNat

/-- The next step is the HOST issuing an item that decodes to `i`. -/
def State.issues (s : State) (i : Instr) : Prop :=
  nextTurn s = .hostOp ∧ ∃ c cs, s.port = c :: cs ∧ decode c = .ok i

/-- The instruction puts no bare escape code on the wire as an opcode (70_reset_and_hazards.md R297). -/
def sendsNoBareEscape (i : Instr) : Bool := i != .escape && i != .sendOpcode 0x55#8

/-- What a receiver reads for one opcode byte (40_escape_codec.md R126, R128). -/
def opcodeToken (c : Byte) : Token := if c = resetCode then .reset else .data c

/-- The tokens a receiver reads for what an instruction sends (40_escape_codec.md R128): the payload byte for SEND_ESCAPED, and
for an opcode its value, or a Reset token for 0xEE. -/
def tokensOf (i : Instr) : List Token :=
  match i with
  | .sendEscaped b => [.data b]
  | i => (wireOf i).map opcodeToken

/-- The next `n` `tx_write`s all answer `ok` (40_escape_codec.md R121, R128). -/
def State.writesOk (n : Nat) (s : State) : Prop := n ≤ s.answers.length ∧ ∀ a ∈ s.answers.take n, a = true

end Sys2Proof.Machine
end

