-- ==== Sys2Proof/Certificates/Slice0/Obligations.lean ====
section
/-! DEFINITION. What is to be proved of the model. -/

open Sys2Proof Sys2Proof.Machine

/-! ### Encoding -/

/-- Every instruction is decoded from its encoding (30_encoding.md R91, R95): no operand bit is dropped.
That a wire opcode is an item of its own is the model's choice (notes/assumptions/2.md). -/
def Obligations.DecodeOfEncodeIsTheInstruction : Prop :=
  ∀ i : Instr, i.wellFormed = true → decode (encode i) = .ok i

/-- Each item has one meaning: a command word that decodes is the word of what it decodes to, with the same data operand for
WRITE_REG and any for the operations that ignore it (30_encoding.md R90, R91), and a wire byte that decodes is the byte
of what it decodes to (R95). Wire items are the model's choice (notes/assumptions/2.md). -/
def Obligations.EncodeOfDecodeIsTheItemUpToIgnoredData : Prop :=
  (∀ (w : Hcw) (d : Word64) (i : Instr), decode (.hcw w d) = .ok i →
    ∃ d', encode i = .hcw w d' ∧ (d' = d ∨ ∀ a v, i ≠ .writeReg a v)) ∧
  (∀ (b : Byte) (i : Instr), decode (.wire b) = .ok i → encode i = .wire b)

/-- 30_encoding.md R93: which host command words are illegal, that no other is, and that an illegal one has no effect
but ILLEGAL_CMD. -/
def Obligations.IllegalWordOnlyRaisesIllegalCmd : Prop :=
  ∀ (w : Hcw) (d : Word64),
    let hop := w.toNat / 256
    let arg := w.toNat % 256
    let illegal := hop ∉ [0x00, 0x01, 0x02, 0x10, 0x11, 0x20, 0x21] ∨ (hop ∈ [0x00, 0x10, 0x11] ∧ arg ≠ 0x00)
    (illegal → (∀ i, decode (.hcw w d) ≠ .ok i) ∧
      ∀ s : State, runItem (.hcw w d) s = .next { s with status := s.status ||| 0x40#8 }) ∧
    (¬ illegal → ∃ i, decode (.hcw w d) = .ok i)

/-- Words written out from 30_encoding.md R91 and R95 decode to the instructions they stand for.
Wire items are the model's choice (notes/assumptions/2.md). -/
def Obligations.WrittenOutWordsDecode : Prop :=
  decode (.hcw 0b0000000000000000#16 7#64) = .ok .nop ∧
  decode (.hcw 0b0000000110111011#16 0#64) = .ok (.sendOpcode 0xBB#8) ∧
  decode (.hcw 0b0000001011101110#16 0#64) = .ok (.sendEscaped 0xEE#8) ∧
  decode (.hcw 0b0001000000000000#16 0#64) = .ok .arm ∧
  decode (.hcw 0b0001000100000000#16 0#64) = .ok .abort ∧
  decode (.hcw 0b0010000000000001#16 10#64) = .ok (.writeReg 0x01#8 10#64) ∧
  decode (.hcw 0b0010000100011001#16 0#64) = .ok (.readReg 0x19#8) ∧
  decode (.wire 0b11101110#8) = .ok .reset ∧ decode (.wire 0b11111110#8) = .ok .start ∧
  decode (.wire 0b11111011#8) = .ok .triggerMaskLastSel

/-- A step in which the HOST issues an item that decodes to `i` is `exec i`, the turn and the item having been taken; and the
step after `withFetchWord` is `exec` of the instruction the table word decodes to, on the state itself.
The port, the schedule and the placing of an item are the model's own (notes/assumptions/2.md, 3.md, 5.md, 6.md). -/
def Obligations.StepRunsTheDecodedInstruction : Prop :=
  (∀ (s : State) (ts : List Turn) (c : Command) (cs : List Command) (i : Instr),
    s.schedule = .hostOp :: ts → s.port = c :: cs → decode c = .ok i →
      step s = exec i { s with schedule := ts, port := cs }) ∧
  (∀ (s : State) (nbits w : Nat) (i : Instr),
    decodeTableWord nbits w = some i → step (s.withFetchWord nbits w) = exec i s)

/-! ### The escape codec -/

/-- 40_escape_codec.md R120: what `escape` is, and its length. -/
def Obligations.EscapeReplacesExactlyTheSentinels : Prop :=
  ∀ bs : List Byte,
    escapeBytes bs = bs.flatMap (fun b => if b = 0xEE#8 ∨ b = 0x55#8 then [0x55#8, b] else [b]) ∧
    (escapeBytes bs).length = bs.length + (bs.filter (fun b => b == 0xEE#8 || b == 0x55#8)).length

/-- 40_escape_codec.md R127: the round trip, that `escape` is injective, and that no Reset and no Pending comes out of an
escaped payload. -/
def Obligations.UnescapeOfEscapeIsTheData : Prop :=
  (∀ bs : List Byte, unesc (escapeBytes bs) = bs.map .data) ∧
  (∀ bs cs : List Byte, escapeBytes bs = escapeBytes cs → bs = cs) ∧
  (∀ bs : List Byte, Token.reset ∉ unesc (escapeBytes bs) ∧ Token.pending ∉ unesc (escapeBytes bs))

/-- 40_escape_codec.md R122: SEND_OPCODE completes in every state; its byte, whatever it is, joins the TX stream raw if
the write answers ok, and TX_FAIL is set if it fails; nothing else changes but that the answer has been used.
The list of answers stands for the rule's draw (notes/assumptions/7.md). -/
def Obligations.SendOpcodeSendsTheByteRaw : Prop :=
  ∀ (c : Byte) (s : State),
    decode (.hcw (0x01#8 ++ c) 0#64) = .ok (.sendOpcode c) ∧
    exec (.sendOpcode c) s = .next
      (if txAnswer s = true then
        { s with tx := s.tx ++ [c], answers := s.answers.tail, draws := s.draws + 1 }
      else { s with status := s.status ||| 0x01#8, answers := s.answers.tail, draws := s.draws + 1 })

/-- 40_escape_codec.md R123 (and R124): SEND_ESCAPED completes in every state; a sentinel takes the escape code first and then
the original byte, each write answered on its own, and every other byte takes one write.
The list of answers stands for the rule's draws (notes/assumptions/7.md). -/
def Obligations.SendEscapedSendsThroughTheEscapeRule : Prop :=
  ∀ (b : Byte) (s : State),
    decode (.hcw (0x02#8 ++ b) 0#64) = .ok (.sendEscaped b) ∧
    (b = 0xEE#8 ∨ b = 0x55#8 →
      let r1 := txAnswer s
      let r2 := txAnswer { s with answers := s.answers.tail, draws := s.draws + 1 }
      exec (.sendEscaped b) s = .next
        { s with
          tx := s.tx ++ (if r1 = true then [0x55#8] else []) ++ (if r2 = true then [b] else [])
          status := if r1 = true ∧ r2 = true then s.status else s.status ||| 0x01#8
          answers := s.answers.tail.tail
          draws := s.draws + 2 }) ∧
    (b ≠ 0xEE#8 ∧ b ≠ 0x55#8 → exec (.sendEscaped b) s = .next
      (if txAnswer s = true then
        { s with tx := s.tx ++ [b], answers := s.answers.tail, draws := s.draws + 1 }
      else { s with status := s.status ||| 0x01#8, answers := s.answers.tail, draws := s.draws + 1 }))

/-- 41_command_frames.md R140–R159: each of the twenty wire opcodes completes in every state and sends its one byte raw,
exactly as `OPC` of that byte does.
That each is an instruction of its own is the model's choice (notes/assumptions/2.md), and the list of answers and the
draw counter stand for the rule's draw (notes/assumptions/7.md). -/
def Obligations.WireOpcodesSendTheirByteRaw : Prop :=
  ∀ row ∈ ([(.reset, 0xEE#8), (.escape, 0x55#8), (.getBusWidths, 0xAA#8), (.getId, 0xBB#8), (.getFeatures, 0x10#8),
      (.getRlcWidth, 0x60#8), (.getChannelNames, 0x70#8), (.getSampleRate, 0x80#8), (.start, 0xFE#8),
      (.configureLA, 0x0F#8), (.laDelaySub, 0x1F#8), (.configureTrigger, 0xF0#8), (.triggerMasksGroup, 0xF1#8),
      (.triggerMasksLastGroup, 0xF9#8), (.triggerMaskSel, 0xF3#8), (.triggerValueSel, 0xF7#8),
      (.triggerMaskLastSel, 0xFB#8), (.triggerValueLastSel, 0xFF#8), (.edgeSelect, 0xF5#8),
      (.edgeSet, 0xF6#8)] : List (Instr × Byte)),
    ∀ s : State, exec row.1 s = .next
      (if txAnswer s = true then
        { s with tx := s.tx ++ [row.2], answers := s.answers.tail, draws := s.draws + 1 }
      else { s with status := s.status ||| 0x01#8, answers := s.answers.tail, draws := s.draws + 1 })

/-- 40_escape_codec.md R121: `send_escaped` of a sequence, every write ok, adds exactly `escape(bytes)` to the TX stream, and
nothing else changes but the answers used. -/
def Obligations.SendEscapedOfASequenceAppendsItsEscape : Prop :=
  ∀ (bs : List Byte) (s : State), s.writesOk (escapeBytes bs).length →
    ∃ t, execAll (bs.map .sendEscaped) s = .next t ∧ t.tx = s.tx ++ escapeBytes bs ∧
      { t with tx := s.tx, answers := s.answers, draws := s.draws } = s

/-- 40_escape_codec.md R128: in what instructions send, none of them a bare 0x55 and every write ok, a receiver reads a Reset
for exactly the opcodes 0xEE, the payload byte for every escaped byte, and its value for every other opcode. -/
def Obligations.OpcodesAreProtectedFromPayload : Prop :=
  ∀ (is : List Instr) (s : State),
    (∀ i ∈ is, sendsNoBareEscape i = true) → s.writesOk (is.flatMap wireOf).length →
      ∃ t w, execAll is s = .next t ∧ t.tx = s.tx ++ w ∧ unesc w = is.flatMap tokensOf

/-- Running a host program whose writes all answer ok makes the TX stream gain the program's wire bytes (40_escape_codec.md
R121–R123, 41_command_frames.md R160, R162: "wire (all writes ok)"), and issues exactly its items. The program is any list
of items: that a wire opcode may be an item of its own (notes/assumptions/2.md), that an unlisted eight-bit item goes
out raw (4.md), and how a program stands on the port (6.md) are the model's choices, and the list of answers is the
model's own (7.md). -/
def Obligations.RunningAProgramPutsItsWireBytesOnTheTxStream : Prop :=
  ∀ (p rest : List Command) (s : State), s.port = p ++ rest → s.writesOk (wireOfProgram p).length →
    ∃ t, takeTurns (List.replicate p.length .hostOp) s = .next t ∧ t.tx = s.tx ++ wireOfProgram p ∧ t.port = rest

/-- 20_memory.md R64, R81: no step takes anything from the TX stream or from the SINK's events; each only grows at its end. -/
def Obligations.TxStreamAndSinkOnlyGrow : Prop :=
  ∀ s s' : State, step s = .next s' → s.tx <+: s'.tx ∧ s.sink <+: s'.sink

/-! ### The register file -/

/-- 43_rlc_decoder.md R211: NOP changes nothing in any state, and a NOP word whose ARG8 is not 0x00 raises ILLEGAL_CMD. -/
def Obligations.NopChangesNothing : Prop :=
  ∀ s : State, exec .nop s = .next s ∧ (∀ d, runItem (.hcw 0x0000#16 d) s = .next s) ∧
    ∀ (a : Byte) (d : Word64), a ≠ 0x00#8 →
      runItem (.hcw (0x00#8 ++ a) d) s = .next { s with status := s.status ||| 0x40#8 }

/-- 43_rlc_decoder.md R212, unlocked: in IDLE and DONE a configuration register takes `v mod 2^width`, and ADDR_WIDTH also
sets LIMIT_SAMPLES to `2^(v mod 2^32) mod 2^64`. -/
def Obligations.ConfigWriteTakesEffectWhenIdle : Prop :=
  ∀ (v : Word64) (s : State), s.state = .idle ∨ s.state = .done →
    exec (.writeReg 0x00#8 v) s = .next { s with dataWidth := BitVec.ofNat 32 v.toNat } ∧
    exec (.writeReg 0x01#8 v) s = .next
      { s with addrWidth := BitVec.ofNat 32 v.toNat, limitSamples := BitVec.ofNat 64 (2 ^ (v.toNat % 2 ^ 32)) } ∧
    exec (.writeReg 0x02#8 v) s = .next { s with rlcWidth := BitVec.ofNat 8 v.toNat } ∧
    exec (.writeReg 0x03#8 v) s = .next { s with limitSamples := v } ∧
    exec (.writeReg 0x04#8 v) s = .next { s with captureRatio := BitVec.ofNat 8 v.toNat }

/-- 60_exceptions.md R265: a configuration write while an acquisition is active raises CFG_LOCKED and writes nothing. -/
def Obligations.ConfigWriteIsLockedWhileActive : Prop :=
  ∀ (a : Byte) (v : Word64) (s : State), a.toNat ≤ 0x04 →
    s.state = .accumulating ∨ s.state = .decoding ∨ s.state = .delivering →
      exec (.writeReg a v) s = .next { s with status := s.status ||| 0x10#8 }

/-- 43_rlc_decoder.md R212, STATUS: write-1-to-clear, in every state, and no other bit or register changes. -/
def Obligations.StatusWriteClearsExactlyTheOnes : Prop :=
  ∀ (v : Word64) (s : State), ∃ t, exec (.writeReg 0x11#8 v) s = .next t ∧
    (∀ k, k < 8 → t.status.getLsbD k = (s.status.getLsbD k && !(v.getLsbD k))) ∧ { t with status := s.status } = s

/-- 10_state.md R41: reserved addresses and writes to read-only addresses. -/
def Obligations.ReservedAndReadOnlyAddressesRaiseBadReg : Prop :=
  ∀ (a : Byte) (v : Word64) (s : State),
    ((0x05 ≤ a.toNat ∧ a.toNat ≤ 0x0F) ∨ 0x1C ≤ a.toNat →
      exec (.readReg a) s = .next { s with rdata64 := 0#64, status := s.status ||| 0x20#8 } ∧
      exec (.writeReg a v) s = .next { s with status := s.status ||| 0x20#8 }) ∧
    (a.toNat = 0x10 ∨ (0x12 ≤ a.toNat ∧ a.toNat ≤ 0x1B) →
      exec (.writeReg a v) s = .next { s with status := s.status ||| 0x20#8 })

/-- 43_rlc_decoder.md R213 over the table of 10_state.md R23: READ_REG returns each defined register mod 2^64, the derived ones
computed from the configuration (R35–R39), in every state and with no other effect.
That RDATA64 is kept in the state is the model's choice (notes/assumptions/10.md). -/
def Obligations.ReadRegReturnsEachRegister : Prop :=
  ∀ s : State,
    let dw := s.dataWidth.toNat
    let aw := s.addrWidth.toNat
    let cw := s.rlcWidth.toNat
    let l := s.limitSamples.toNat
    let stateNumber := match s.state with
      | .idle => 0
      | .accumulating => 1
      | .decoding => 2
      | .delivering => 3
      | .done => 4
    ∀ row ∈ ([(0x00#8, dw), (0x01#8, aw), (0x02#8, cw), (0x03#8, l), (0x04#8, s.captureRatio.toNat),
        (0x10#8, stateNumber), (0x11#8, s.status.toNat), (0x12#8, s.transferredBytes), (0x13#8, s.totalSamples),
        (0x14#8, s.delayRaw), (0x15#8, s.delayValue), (0x16#8, (dw + 7) / 8), (0x17#8, (aw + 7) / 8),
        (0x18#8, (dw + cw + 7) / 8), (0x19#8, 2 ^ aw), (0x1A#8, l * ((dw + cw + 7) / 8)),
        (0x1B#8, if s.rxEn = true then 1 else 0)] : List (Byte × Nat)),
      exec (.readReg row.1) s = .next { s with rdata64 := BitVec.ofNat 64 row.2 }

/-- 10_state.md R30: only a WRITE_REG that writes a one to it, or a reset, clears a STATUS bit. -/
def Obligations.StatusBitsAreSticky : Prop :=
  ∀ (s s' : State) (k : Nat), step s = .next s' → s.status.getLsbD k = true → s'.status.getLsbD k = false →
    nextTurn s = .resetInput ∨ ∃ v, s.issues (.writeReg 0x11#8 v) ∧ v.getLsbD k = true

/-- 10_state.md R23 and R45: what READ_REG returns of each register right after reset. -/
def Obligations.RegistersReadTheirResetValues : Prop :=
  ∀ a : Byte, a ∈ ([0x00, 0x01, 0x02, 0x03, 0x04, 0x10, 0x11, 0x12, 0x13, 0x14, 0x15, 0x16, 0x17, 0x18, 0x19, 0x1A,
      0x1B] : List Byte) →
    exec (.readReg a) State.reset =
      .next { State.reset with rdata64 := if a = 0x03#8 ∨ a = 0x19#8 then 1#64 else 0#64 }

/-! ### ARM and ABORT -/

/-- 43_rlc_decoder.md R214: ARM in every state, with its checks in order.
Empty buffers and `epoch` stand for contents that have become unspecified (notes/assumptions/11.md). -/
def Obligations.ArmFollowsItsChecksInOrder : Prop :=
  ∀ s : State,
    let dw := s.dataWidth.toNat
    let l := s.limitSamples.toNat
    let p := s.captureRatio.toNat
    let budget := l * ((dw + s.rlcWidth.toNat + 7) / 8)
    let active := s.state = .accumulating ∨ s.state = .decoding ∨ s.state = .delivering
    let legal := (1 ≤ dw ∧ dw ≤ s.params.dataWidthMax) ∧ s.addrWidth.toNat ≤ s.params.addrWidthMax ∧
      s.rlcWidth.toNat ≤ s.params.rlcWidthMax ∧ (1 ≤ l ∧ l ≤ 2 ^ s.addrWidth.toNat) ∧ p ≤ 100
    let latched := { s with transferredBytes := 0, totalSamples := 0, delayValue := 0, delayRaw := (l - 1) * p / 100 }
    (∀ d, runItem (.hcw 0x1000#16 d) s = exec .arm s) ∧
    (active → exec .arm s = .next { s with status := s.status ||| 0x40#8 }) ∧
    (¬ active → ¬ legal → exec .arm s = .next { s with status := s.status ||| 0x80#8 }) ∧
    (¬ active → legal → s.params.rawCapacityBytes < budget →
      exec .arm s = .next { latched with
        status := s.status ||| 0x04#8, state := .done, rxEn := false, sink := s.sink ++ [.endOfAcquisition],
        rawbuf := [], rpt := [], outbuf := [], epoch := s.epoch + 1 }) ∧
    (¬ active → legal → budget ≤ s.params.rawCapacityBytes →
      exec .arm s = .next { latched with outSrc := .rawbuf, state := .accumulating, rxEn := true })

/-- 43_rlc_decoder.md R215: ABORT in every state.
Empty buffers and `epoch` stand for contents that have become unspecified (notes/assumptions/11.md). -/
def Obligations.AbortEndsTheAcquisition : Prop :=
  ∀ s : State,
    (∀ d, runItem (.hcw 0x1100#16 d) s = exec .abort s) ∧
    (s.state = .accumulating ∨ s.state = .decoding →
      exec .abort s = .next { s with
        status := s.status ||| 0x08#8, state := .done, rxEn := false, sink := s.sink ++ [.endOfAcquisition],
        rawbuf := [], rpt := [], outbuf := [], epoch := s.epoch + 1 }) ∧
    (s.state = .idle ∨ s.state = .delivering ∨ s.state = .done →
      exec .abort s = .next { s with status := s.status ||| 0x40#8 })

/-- 43_rlc_decoder.md R224: every step that enters DONE performs the DONE entry actions, with END the last event of the
step, and RX_EN and the buffers as they say.
Empty buffers and `epoch` stand for contents that have become unspecified (notes/assumptions/11.md). -/
def Obligations.EveryEntryIntoDonePerformsItsActions : Prop :=
  ∀ s s' : State, step s = .next s' → s.state ≠ .done → s'.state = .done →
    s'.rxEn = false ∧ (∀ a, Store.read s'.rawbuf a = none ∧ Store.read s'.rpt a = none ∧ Store.read s'.outbuf a = none) ∧
    s'.epoch = s.epoch + 1 ∧ (∃ evs, s'.sink = s.sink ++ evs ++ [.endOfAcquisition] ∧ .endOfAcquisition ∉ evs) ∧
    s'.delayRaw = (if s.active = true then s.delayRaw else (s.limitSamples.toNat - 1) * s.captureRatio.toNat / 100) ∧
    (s.active = true →
      s'.totalSamples = s.totalSamples ∧ s'.delayValue = s.delayValue ∧ s'.transferredBytes = s.transferredBytes)

/-- What an instruction leaves unchanged (10_state.md R41–R46): no instruction changes the parameters, the RX stream, the
HOST, the inputs to come (but the answers it uses), RPT, or any byte of RAWBUF and OUTBUF, unless it is an ARM or an
ABORT that enters DONE; and only ARM and ABORT change STATE, RX_EN, OUT_SRC, the counters and the SINK's events.
That RDATA64 keeps its value across every instruction but READ_REG, and DELIV_PHASE across every instruction, are the
model's choices (notes/assumptions/10.md, 29.md). -/
def Obligations.InstructionsKeepWhatTheyDoNotName : Prop :=
  ∀ (i : Instr) (s t : State), exec i s = .next t →
    (t.params = s.params ∧ t.rx = s.rx ∧ t.host = s.host ∧ t.port = s.port ∧ t.schedule = s.schedule ∧
      t.delivPhase = s.delivPhase) ∧
    ((∀ a v, i ≠ .writeReg a v) → t.dataWidth = s.dataWidth ∧ t.addrWidth = s.addrWidth ∧ t.rlcWidth = s.rlcWidth ∧
      t.limitSamples = s.limitSamples ∧ t.captureRatio = s.captureRatio) ∧
    ((∀ a, i ≠ .readReg a) → t.rdata64 = s.rdata64) ∧
    (wireOf i = [] → t.tx = s.tx ∧ t.answers = s.answers ∧ t.draws = s.draws) ∧
    (i ≠ .arm → i ≠ .abort →
      t.state = s.state ∧ t.rxEn = s.rxEn ∧ t.outSrc = s.outSrc ∧ t.transferredBytes = s.transferredBytes ∧
      t.totalSamples = s.totalSamples ∧ t.delayRaw = s.delayRaw ∧ t.delayValue = s.delayValue ∧ t.sink = s.sink) ∧
    ((i = .arm ∨ i = .abort) ∧ t.state = .done ∧ t.sink = s.sink ++ [.endOfAcquisition] ∨
      (∀ (sp : Space) (a : Nat), t.byteAt sp a = s.byteAt sp a) ∧ ∀ a, Store.read t.rpt a = Store.read s.rpt a)

/-! ### Accumulation, decoding, delivery -/

/-- 43_rlc_decoder.md R216: RX_READY of a chunk of `n` bytes. The bytes leave the RX stream, as many as the budget leaves room
for are stored at TRANSFERRED_BYTES on, the rest are dropped with RX_TRUNC, and a full budget moves to DECODING;
every other byte of RAWBUF and everything else stays. Where it is not enabled nothing happens. -/
def Obligations.RxReadyStoresUpToTheBudget : Prop :=
  ∀ (n : Nat) (s : State), n ≤ s.params.chunkMax → n ≤ s.rx.length →
    let budget := s.limitSamples.toNat * ((s.dataWidth.toNat + s.rlcWidth.toNat + 7) / 8)
    let at0 := s.transferredBytes
    let k := min n (budget - at0)
    (¬ (s.state = .accumulating ∧ s.rxEn = true) → takeTurn (.rxReady n) s = .next s) ∧
    (s.state = .accumulating → s.rxEn = true → at0 ≤ budget → budget ≤ s.params.rawCapacityBytes →
      ∃ t, takeTurn (.rxReady n) s = .next t ∧ t.rx = s.rx.drop n ∧ t.transferredBytes = at0 + k ∧
        t.status = (if k < n then s.status ||| 0x02#8 else s.status) ∧
        t.state = (if at0 + k = budget then .decoding else .accumulating) ∧
        (∀ a, t.byteAt .rawbuf a = if at0 ≤ a ∧ a < at0 + k then s.rx.getD (a - at0) 0 else s.byteAt .rawbuf a) ∧
        { t with rx := s.rx, rawbuf := s.rawbuf, transferredBytes := at0, status := s.status, state := s.state } = s)

/-- 43_rlc_decoder.md R217 and R220: DECODE with the run-length coder off. -/
def Obligations.PlainDecodeUsesTheRawBuffer : Prop :=
  ∀ s : State, s.state = .decoding → s.rlcWidth = 0#8 →
    takeTurn .decoderStep s = .next { s with
      totalSamples := s.limitSamples.toNat, delayValue := s.delayRaw, outSrc := .rawbuf, state := .delivering,
      delivPhase := if 0 < s.delayRaw then .pre else .trig }

/-- 43_rlc_decoder.md R218: the repeat counts, their sum and the corrected delay, where both capacities suffice. -/
def Obligations.ExpandedDecodeCountsTheRepeats : Prop :=
  ∀ s : State, s.state = .decoding → 0 < s.rlcWidth.toNat →
    let r := (s.dataWidth.toNat + s.rlcWidth.toNat + 7) / 8
    let l := s.limitSamples.toNat
    let rep := fun i => le (s.bytesAt .rawbuf (i * r) r) % 2 ^ s.rlcWidth.toNat + 1
    let total := ((List.range l).map rep).sum
    l * r ≤ s.params.rawCapacityBytes → l ≤ s.params.rptCapacityEntries →
      total * ((s.dataWidth.toNat + 7) / 8) ≤ s.params.outCapacityBytes →
        ∃ t, takeTurn .decoderStep s = .next t ∧ t.state = .delivering ∧ t.outSrc = .outbuf ∧
          t.totalSamples = total ∧ t.delayValue = ((List.range (min s.delayRaw l)).map rep).sum ∧
          t.delivPhase = (if 0 < t.delayValue then .pre else .trig) ∧
          (∀ i, i < l → Store.read t.rpt i = some (rep i)) ∧ t.status = s.status ∧ t.sink = s.sink ∧
          t.rawbuf = s.rawbuf

/-- 43_rlc_decoder.md R218, R219 and 60_exceptions.md R263: DECODE that does not fit the repeat table or the output buffer
raises ALLOC_FAIL and performs the DONE entry actions. Empty buffers and `epoch` stand for contents that have become
unspecified (notes/assumptions/11.md). -/
def Obligations.DecodeThatDoesNotFitEndsTheAcquisition : Prop :=
  ∀ s : State, s.state = .decoding → 0 < s.rlcWidth.toNat →
    let r := (s.dataWidth.toNat + s.rlcWidth.toNat + 7) / 8
    let l := s.limitSamples.toNat
    let total := ((List.range l).map (fun i => le (s.bytesAt .rawbuf (i * r) r) % 2 ^ s.rlcWidth.toNat + 1)).sum
    l * r ≤ s.params.rawCapacityBytes →
      (s.params.rptCapacityEntries < l ∨ s.params.outCapacityBytes < total * ((s.dataWidth.toNat + 7) / 8)) →
        takeTurn .decoderStep s = .next { s with
          status := s.status ||| 0x04#8, state := .done, rxEn := false, sink := s.sink ++ [.endOfAcquisition],
          rawbuf := [], rpt := [], outbuf := [], epoch := s.epoch + 1 }

/-- 30_encoding.md R104 and 43_rlc_decoder.md R219: in the decoded buffer each payload stands `repeats` times, one after the
other, in the order of the raw samples.
How the draws past sample `i` are named is the model's own (notes/assumptions/12.md): they are some `past i`. -/
def Obligations.ExpandedBufferHoldsEachPayloadRepeated : Prop :=
  ∀ s t : State, s.state = .decoding → 0 < s.rlcWidth.toNat → takeTurn .decoderStep s = .next t →
    t.state = .delivering →
    let r := (s.dataWidth.toNat + s.rlcWidth.toNat + 7) / 8
    let d := (s.dataWidth.toNat + 7) / 8
    let raw := fun i => s.bytesAt .rawbuf (i * r) r
    let rep := fun i => le (raw i) % 2 ^ s.rlcWidth.toNat + 1
    ∃ past : Nat → Nat → Byte, ∀ i j k, i < s.limitSamples.toNat → j < rep i → k < d →
      t.byteAt .outbuf ((((List.range i).map rep).sum + j) * d + k) =
        (payloadOf s.rlcWidth.toNat d (raw i) (past i)).getD k 0

/-- 30_encoding.md R102: the channel bits of a payload are the channel bits of the raw sample, whatever the bits past the
sample's end are; and with a code of whole bytes the payload holds no such bit at all. -/
def Obligations.PayloadHoldsTheChannelBits : Prop :=
  ∀ (dw c : Nat) (raw : List Byte) (past : Nat → Byte), raw.length = (dw + c + 7) / 8 →
    (∀ m, m < dw → (le (payloadOf c ((dw + 7) / 8) raw past)).testBit m = (le raw).testBit (c + m)) ∧
    (c % 8 = 0 → payloadOf c ((dw + 7) / 8) raw past = raw.drop (c / 8))

/-- 30_encoding.md R101: the range of a repeat count, and that its field lies in the low `ceil_div(C, 8)` bytes. -/
def Obligations.RepeatCountComesFromTheLowBytes : Prop :=
  ∀ (c : Nat) (raw : List Byte),
    repeatsOf c raw = le raw % 2 ^ c + 1 ∧ 1 ≤ repeatsOf c raw ∧ repeatsOf c raw ≤ 2 ^ c ∧
    repeatsOf c raw = repeatsOf c (raw.take ((c + 7) / 8))

/-- 43_rlc_decoder.md R226: after a successful DECODE the post-trigger segment holds at least one sample. -/
def Obligations.DecodeLeavesAPostTriggerSample : Prop :=
  ∀ s t : State, s.Inv → s.state = .decoding → takeTurn .decoderStep s = .next t → t.state = .delivering →
    s.limitSamples.toNat ≤ t.totalSamples ∧ t.totalSamples ≤ s.limitSamples.toNat * 2 ^ s.rlcWidth.toNat ∧
      t.delayValue ≤ t.totalSamples - 1 ∧ t.delayValue < t.totalSamples

/-- 43_rlc_decoder.md R221–R224: the delivery step of each DELIV_PHASE, alone, from every state of DELIVERING that meets the
invariant, and so also after host operations between the steps (source example A16). Empty buffers and `epoch` stand
for contents that have become unspecified (notes/assumptions/11.md). -/
def Obligations.EachDeliveryStepHandsItsEvent : Prop :=
  ∀ s : State, s.Inv → s.state = .delivering →
    let d := (s.dataWidth.toNat + 7) / 8
    (s.delivPhase = .pre → takeTurn .decoderStep s = .next { s with
      sink := s.sink ++ [.logic (s.bytesAt s.outSrc 0 (s.delayValue * d)) d], delivPhase := .trig }) ∧
    (s.delivPhase = .trig → takeTurn .decoderStep s = .next { s with
      sink := s.sink ++ [.trigger], delivPhase := .post }) ∧
    (s.delivPhase = .post → takeTurn .decoderStep s = .next { s with
      sink := s.sink ++
        [.logic (s.bytesAt s.outSrc (s.delayValue * d) ((s.totalSamples - s.delayValue) * d)) d, .endOfAcquisition]
      state := .done, rxEn := false, rawbuf := [], rpt := [], outbuf := [], epoch := s.epoch + 1 })

/-- 20_memory.md R81 and 43_rlc_decoder.md R221–R224: the SINK's events of the delivery steps, taken one after the other from
the state DECODE leaves, with no other turn between them; the two segments together are all the decoded samples. -/
def Obligations.DeliveryHandsTheSinkItsSequence : Prop :=
  ∀ s : State, s.Inv → s.state = .delivering → s.delivPhase = (if 0 < s.delayValue then .pre else .trig) →
    let d := (s.dataWidth.toNat + 7) / 8
    let preBytes := s.bytesAt s.outSrc 0 (s.delayValue * d)
    let postBytes := s.bytesAt s.outSrc (s.delayValue * d) ((s.totalSamples - s.delayValue) * d)
    preBytes ++ postBytes = s.bytesAt s.outSrc 0 (s.totalSamples * d) ∧
    ∃ t, takeTurns (List.replicate (if 0 < s.delayValue then 3 else 2) .decoderStep) s = .next t ∧
      t.sink = s.sink ++ (if 0 < s.delayValue then [SinkEvent.logic preBytes d] else []) ++
        [.trigger, .logic postBytes d, .endOfAcquisition] ∧
      t.state = .done ∧ t.rxEn = false ∧ t.totalSamples = s.totalSamples ∧ t.delayValue = s.delayValue ∧
      t.delayRaw = s.delayRaw ∧ t.transferredBytes = s.transferredBytes ∧ t.status = s.status

/-! ### The whole machine -/

/-- The reset state meets the invariant. -/
def Obligations.ResetMeetsTheInvariant : Prop := State.reset.Inv

/-- Every step keeps the invariant: canonical storage inside its spaces, RX_EN, the checked configuration, the counters'
bounds, and that what will be read has been written (20_memory.md R61–R63, 43_rlc_decoder.md R226).
The canonical form of the storage is the model's own (notes/assumptions/11.md). -/
def Obligations.EveryStepKeepsTheInvariant : Prop :=
  ∀ s s' : State, s.Inv → step s = .next s' → s'.Inv

/-- From a state that meets the invariant the machine never stops: no access leaves its space and no instruction is refused.
That an access outside a space faults is the model's choice (notes/assumptions/13.md). -/
def Obligations.MachineNeverStopsUnderTheInvariant : Prop :=
  ∀ (n : Nat) (s : State), s.Inv → ∃ s', core.run n s = .next s' ∧ s'.Inv

/-- 43_rlc_decoder.md R210: STATE moves only along the edges of the table, each for its event; a reset alone leads to IDLE
(70_reset_and_hazards.md R290). -/
def Obligations.StateMovesOnlyAlongItsEdges : Prop :=
  ∀ s s' : State, step s = .next s' → s'.state ≠ s.state →
    (s'.state = .idle ∧ nextTurn s = .resetInput) ∨
    ((s.state = .idle ∨ s.state = .done) ∧ s'.state = .accumulating ∧ s.issues .arm) ∨
    (s.state = .idle ∧ s'.state = .done ∧ s.issues .arm) ∨
    (s.state = .accumulating ∧ s'.state = .decoding ∧ ∃ n, nextTurn s = .rxReady n) ∨
    ((s.state = .accumulating ∨ s.state = .decoding) ∧ s'.state = .done ∧ s.issues .abort) ∨
    (s.state = .decoding ∧ (s'.state = .delivering ∨ s'.state = .done) ∧ nextTurn s = .decoderStep) ∨
    (s.state = .delivering ∧ s'.state = .done ∧ nextTurn s = .decoderStep ∧ s.delivPhase = .post)

/-- 00_scope.md R6: the parameters are fixed. 70_reset_and_hazards.md R295: while an acquisition is active no step but a reset
changes a configuration register. -/
def Obligations.ConfigurationIsConstantDuringAnAcquisition : Prop :=
  ∀ s s' : State, step s = .next s' →
    s'.params = s.params ∧
    (s.state = .accumulating ∨ s.state = .decoding ∨ s.state = .delivering → nextTurn s ≠ .resetInput →
      s'.dataWidth = s.dataWidth ∧ s'.addrWidth = s.addrWidth ∧ s'.rlcWidth = s.rlcWidth ∧
      s'.limitSamples = s.limitSamples ∧ s'.captureRatio = s.captureRatio)

/-- 70_reset_and_hazards.md R302, 43_rlc_decoder.md R224: in DONE the results stay until the next ARM or reset. -/
def Obligations.ResultsLiveUntilTheNextArm : Prop :=
  ∀ s s' : State, step s = .next s' → s.state = .done → ¬ s.issues .arm → nextTurn s ≠ .resetInput →
    s'.state = .done ∧ s'.totalSamples = s.totalSamples ∧ s'.delayRaw = s.delayRaw ∧ s'.delayValue = s.delayValue ∧
      s'.transferredBytes = s.transferredBytes

/-- 70_reset_and_hazards.md R290, R291 and 10_state.md R45: the reset input gives the block its reset values, puts no byte on
the TX stream, hands no event to the SINK, and leaves the RX stream. Unlisted bytes stand for unspecified contents
(notes/assumptions/11.md). -/
def Obligations.ResetInputGivesTheResetValuesAndEmitsNothing : Prop :=
  ∀ s : State, ∃ t, takeTurn .resetInput s = .next t ∧
    (t.dataWidth = 0 ∧ t.addrWidth = 0 ∧ t.rlcWidth = 0 ∧ t.limitSamples = 1 ∧ t.captureRatio = 0 ∧ t.state = .idle ∧
      t.status = 0 ∧ t.transferredBytes = 0 ∧ t.totalSamples = 0 ∧ t.delayRaw = 0 ∧ t.delayValue = 0 ∧
      t.rxEn = false ∧ t.outSrc = .rawbuf ∧ t.delivPhase = .pre) ∧
    (∀ a, Store.read t.rawbuf a = none ∧ Store.read t.rpt a = none ∧ Store.read t.outbuf a = none) ∧
    t.tx = s.tx ∧ t.sink = s.sink ∧ t.rx = s.rx ∧ t.params = s.params

/-- 20_memory.md R65: bytes leave the RX stream only at its front, and only in an enabled RX_READY or a blocking read of the
HOST; the DEVICE alone adds bytes, at the end.
The bound on what a failed read takes is the model's choice (notes/assumptions/9.md). -/
def Obligations.RxStreamIsConsumedFromTheFront : Prop :=
  ∀ s s' : State, step s = .next s' →
    s'.rx = s.rx ∨ (∃ bytes, nextTurn s = .deviceSends bytes ∧ s'.rx = s.rx ++ bytes) ∨
    (∃ n, nextTurn s = .rxReady n ∧ s.state = .accumulating ∧ s.rxEn = true ∧
      ∃ k, k ≤ n ∧ k ≤ s.params.chunkMax ∧ s'.rx = s.rx.drop k) ∨
    (∃ a, nextTurn s = .hostRead a ∧ ∃ k, s'.rx = s.rx.drop k)

/-- 20_memory.md R82: the two halves share no state. The bytes the framer sends and the failures it reports depend on the LINK's
answers alone; and the RX half's own steps do the same whatever the framer has sent, whatever answers it has used and
whatever it has set in STATUS. The answers and the draw counter are the model's own (notes/assumptions/7.md). -/
def Obligations.TheTwoHalvesAreIndependent : Prop :=
  (∀ (i : Instr) (s u t v : State), wireOf i ≠ [] → s.answers = u.answers → s.draws = u.draws →
    exec i s = .next t → exec i u = .next v →
      (∃ w, t.tx = s.tx ++ w ∧ v.tx = u.tx ++ w) ∧
      (∃ e, t.status = s.status ||| e ∧ v.status = u.status ||| e)) ∧
  (∀ (turn : Turn) (s t : State), turn = .decoderStep ∨ (∃ n, turn = .rxReady n) → takeTurn turn s = .next t →
    ∃ e, t.status = s.status ||| e ∧ ∀ (tx : List Byte) (answers : List Bool) (draws : Nat) (status : BitVec 8),
      takeTurn turn { s with tx := tx, answers := answers, draws := draws, status := status } =
        .next { t with tx := tx, answers := answers, draws := draws, status := status ||| e })

/-- Equal memories are equal data: two stores in canonical form that read the same at every address are the same list.
The form is the model's own (notes/assumptions/11.md). -/
def Obligations.CanonicalStoresAreDeterminedByTheirReads : Prop :=
  ∀ m n : Memory, Memory.wf m → Memory.wf n → (∀ a, Store.read m a = Store.read n a) → m = n

/-! ### The HOST -/

/-- 42_host_functions.md R200: the delay formula and its range. -/
def Obligations.DelayRawStaysBelowTheSampleCount : Prop :=
  ∀ l p : Nat, 1 ≤ l → p ≤ 100 →
    delayRawOf l p = ((l - 1) * p) / 100 ∧ delayRawOf l p ≤ l - 1 ∧ delayRawOf l 0 = 0 ∧ delayRawOf l 100 = l - 1

/-- 41_command_frames.md R162: the delay frame's wire bytes, most significant first, and that the delay of a legal configuration
always fits. -/
def Obligations.DelayFrameCarriesTheDelay : Prop :=
  (∀ a d : Nat, ∃ bs : List Byte, bs.length = a ∧ le bs.reverse = d % 2 ^ (8 * a) ∧
    wireOfProgram (delayFrame a d) = [0x0F#8, 0x1F#8] ++ escapeBytes bs) ∧
  (∀ l p aw : Nat, 1 ≤ l → l ≤ 2 ^ aw → p ≤ 100 → delayRawOf l p < 2 ^ (8 * ((aw + 7) / 8)))

/-- 41_command_frames.md R160 and R161: the five trigger frames on the wire, in their fixed order. -/
def Obligations.TriggerFramesGoOutInOrder : Prop :=
  ∀ v : TriggerVectors, wireOfProgram (triggerFrames v) =
    [0xF0#8, 0xF1#8, 0xF3#8] ++ escapeBytes v.mask.reverse ++
    ([0xF0#8, 0xF1#8, 0xF7#8] ++ escapeBytes v.value.reverse) ++
    ([0xF0#8, 0xF9#8, 0xFB#8] ++ escapeBytes v.maskLast.reverse) ++
    ([0xF0#8, 0xF9#8, 0xFF#8] ++ escapeBytes v.valueLast.reverse) ++
    ([0xF0#8, 0xF5#8, 0xF6#8] ++ escapeBytes v.edgeMask.reverse)

/-- 41_command_frames.md R164 and R165: a device that holds the same D and A reads from the wire of an acquisition start exactly
its seven frames, whatever bytes the vectors and the delay hold, and stands at a frame boundary after them. -/
def Obligations.DeviceReadsTheStartSequence : Prop :=
  ∀ (v : TriggerVectors) (d a delay : Nat),
    v.mask.length = d → v.value.length = d → v.maskLast.length = d → v.valueLast.length = d → v.edgeMask.length = d →
      deviceFrames d a (wireOfProgram (startSequence v a delay)) =
        ([⟨[0xF0#8, 0xF1#8, 0xF3#8], v.mask.reverse⟩, ⟨[0xF0#8, 0xF1#8, 0xF7#8], v.value.reverse⟩,
          ⟨[0xF0#8, 0xF9#8, 0xFB#8], v.maskLast.reverse⟩, ⟨[0xF0#8, 0xF9#8, 0xFF#8], v.valueLast.reverse⟩,
          ⟨[0xF0#8, 0xF5#8, 0xF6#8], v.edgeMask.reverse⟩, ⟨[0x0F#8, 0x1F#8], delayBytes a delay⟩,
          ⟨[0xFE#8], []⟩], .frameStart)

/-- 42_host_functions.md R198: the translation table, and that every other channel's bits stay. -/
def Obligations.TriggerTableSetsAndClearsItsBits : Prop :=
  ∀ (k : MatchKind) (c c' : Nat) (v : TriggerVectors) (d : Nat),
    v.mask.length = d → v.value.length = d → v.maskLast.length = d → v.valueLast.length = d → v.edgeMask.length = d →
    c < 8 * d →
    let w := applyMatch k c v
    (c' ≠ c → channelOf w.mask c' = channelOf v.mask c' ∧ channelOf w.value c' = channelOf v.value c' ∧
      channelOf w.maskLast c' = channelOf v.maskLast c' ∧ channelOf w.valueLast c' = channelOf v.valueLast c' ∧
      channelOf w.edgeMask c' = channelOf v.edgeMask c') ∧
    (channelOf w.value c, channelOf w.valueLast c, channelOf w.mask c, channelOf w.maskLast c, channelOf w.edgeMask c) =
      match k with
      | .one => (true, channelOf v.valueLast c, true, false, false)
      | .zero => (false, channelOf v.valueLast c, true, false, false)
      | .rising => (true, false, true, true, false)
      | .falling => (false, true, true, true, false)
      | .edge => (channelOf v.value c, channelOf v.valueLast c, false, false, true)

/-- 42_host_functions.md R199: when the translation fails, that disabled specifications are skipped, that no specification leaves all
vectors zero, and that the edge bit excludes the mask bits.
That a disabled specification out of range is skipped is the model's reading (notes/assumptions/17.md). -/
def Obligations.TriggerTranslationKeepsEdgeAndMaskApart : Prop :=
  ∀ (dw : Nat) (specs : List TriggerSpec),
    (translate dw specs = none ↔ ∃ sp ∈ specs, sp.enabled = true ∧ dw ≤ sp.channel) ∧
    translate dw specs = translate dw (specs.filter (fun sp => sp.enabled)) ∧
    translate dw [] = some (zeroVectors ((dw + 7) / 8)) ∧
    ∀ v, translate dw specs = some v → ∀ c,
      (channelOf v.edgeMask c = true → channelOf v.mask c = false ∧ channelOf v.maskLast c = false) ∧
      (channelOf v.mask c = true ∨ channelOf v.maskLast c = true → channelOf v.edgeMask c = false)

/-- 42_host_functions.md R191 and 30_encoding.md R106: the identity check.
What the HOST asks next is read from 41_command_frames.md R163 (notes/assumptions/20.md). -/
def Obligations.IdentityReplyIsMatchedExactly : Prop :=
  ∀ (h : HostState) (r : List Byte),
    (r = [0x49#8, 0x44#8, 0x42#8, 0x47#8] → ((onReply .identity (.ok r) h).1.caps.protocolVersion = .v0 ∧
      (onReply .identity (.ok r) h).1.phase = .awaiting .busWidths)) ∧
    (r = [0x69#8, 0x64#8, 0x62#8, 0x67#8] → ((onReply .identity (.ok r) h).1.caps.protocolVersion = .v1 ∧
      (onReply .identity (.ok r) h).1.phase = .awaiting .features)) ∧
    (r ≠ [0x49#8, 0x44#8, 0x42#8, 0x47#8] → r ≠ [0x69#8, 0x64#8, 0x62#8, 0x67#8] →
      (onReply .identity (.ok r) h).1.phase = .failed .protocolMismatch ∧ (onReply .identity (.ok r) h).2 = []) ∧
    ∀ e, (onReply .identity (.error e) h).1.phase = .failed e ∧ (onReply .identity (.error e) h).2 = []

/-- 42_host_functions.md R192–R196: every sub-query but the identity check goes on, whatever its reply, to the next request of
41_command_frames.md R163 that the feature flags and the widths ask for, or to the end of the negotiation; and a failed
one is recorded and takes its default: zero feature bits, zero widths, zero run-length width, the channel's name
synthesized (none given is added), no sample rate. When the HOST moves is the model's reading (notes/assumptions/20.md). -/
def Obligations.EverySubQueryGoesOnWithItsDefault : Prop :=
  ∀ h : HostState,
    let afterNames : DeviceCapabilities → HostPhase := fun c =>
      if c.featureFlags.getLsbD 2 = true then .awaiting .sampleRate else .negotiated
    let atName : Nat → DeviceCapabilities → HostPhase := fun i c =>
      if i < c.dataWidth then .awaiting (.nameLength i) else afterNames c
    let afterCode : DeviceCapabilities → HostPhase := fun c =>
      if c.featureFlags.getLsbD 3 = true ∧ c.dataWidth ≤ 255 then atName 0 c else afterNames c
    let afterWidths : DeviceCapabilities → HostPhase := fun c =>
      if c.featureFlags.getLsbD 1 = true then .awaiting .rlcWidth else afterCode c
    (∀ reply,
      (onReply .features reply h).1.phase = .awaiting .busWidths ∧
      (onReply .busWidths reply h).1.phase = afterWidths (onReply .busWidths reply h).1.caps ∧
      (onReply .rlcWidth reply h).1.phase = afterCode (onReply .rlcWidth reply h).1.caps ∧
      (∀ i n, (onReply (.nameBytes i n) reply h).1.phase = atName (i + 1) h.caps) ∧
      (onReply .sampleRate reply h).1.phase = .negotiated) ∧
    (∀ i bytes, (onReply (.nameLength i) (.ok bytes) h).1.phase = .awaiting (.nameBytes i (le bytes))) ∧
    (∀ i e, (onReply (.nameLength i) (.error e) h).1.phase = atName (i + 1) h.caps) ∧
    ∀ e,
      (∀ q, q ≠ .identity → (onReply q (.error e) h).1.exceptions = h.exceptions ++ [e]) ∧
      (onReply .features (.error e) h).1.caps = { h.caps with featureFlags := 0 } ∧
      (onReply .busWidths (.error e) h).1.caps =
        { h.caps with
          dataWidth := 0, addrWidth := 0
          runlengthCodeWidth := if h.caps.featureFlags.getLsbD 1 = true then h.caps.runlengthCodeWidth else 0 } ∧
      (onReply .rlcWidth (.error e) h).1.caps = { h.caps with runlengthCodeWidth := 0 } ∧
      (∀ i, (onReply (.nameLength i) (.error e) h).1.caps = h.caps) ∧
      (∀ i n, (onReply (.nameBytes i n) (.error e) h).1.caps = h.caps) ∧
      (onReply .sampleRate (.error e) h).1.caps = { h.caps with sampleRate := none }

/-- 60_exceptions.md R269: after a failed identity check the HOST does not configure or ARM the block. No item that does stands
on its port then: at reset, and after every step that starts from such a state; so no step from such a state issues
one. In every other phase, and for every other item, the HOST hands over what it likes (60_exceptions.md R276). Which
items those are, and when the HOST moves, is the model's reading (notes/assumptions/20.md). -/
def Obligations.AFailedHostNeitherConfiguresNorArms : Prop :=
  State.reset.FailedHostHoldsBack ∧
  (∀ s s' : State, s.FailedHostHoldsBack → step s = .next s' → s'.FailedHostHoldsBack) ∧
  (∀ (s : State) (e : HostException), s.FailedHostHoldsBack → s.host.phase = .failed e →
    ¬ s.issues .arm ∧ ∀ a v, s.issues (.writeReg a v) → 0x04 < a.toNat) ∧
  ∀ (s : State) (items : List Command),
    (∀ e, s.host.phase ≠ .failed e) ∨
      (∀ c ∈ items, decode c ≠ .ok .arm ∧ ∀ a v, decode c = .ok (.writeReg a v) → 0x04 < a.toNat) →
    takeTurn (.hostIssues items) s = .next { s with port := s.port ++ items }

/-- 42_host_functions.md R197, 10_state.md R44, 30_encoding.md R107: each of the five trigger vectors has DATA_WIDTH_BYTES bytes:
at reset, and after every step that starts from such a state, a failed translation included. -/
def Obligations.HostVectorsHaveDataWidthBytes : Prop :=
  State.reset.host.vectors.sized State.reset.host.caps.dataWidthBytes ∧
  ∀ s s' : State, s.host.vectors.sized s.host.caps.dataWidthBytes → step s = .next s' →
    s'.host.vectors.sized s'.host.caps.dataWidthBytes

/-- 70_reset_and_hazards.md R292: the HOST moves only along its boot order: a reset puts it at the start; it negotiates, then
begins an acquisition; then it waits for END from the SINK or for STATE = DONE, which it polls, and reads the three
results, and only then can it begin the next one. When the HOST moves is the model's reading
(notes/assumptions/15.md, 20.md). -/
def Obligations.HostFollowsItsBootOrder : Prop :=
  ∀ s s' : State, step s = .next s' → s'.host.phase ≠ s.host.phase →
    (nextTurn s = .resetInput ∧ s'.host.phase = .notStarted) ∨
    (nextTurn s = .hostNegotiate ∧ s.host.phase = .notStarted ∧ s'.host.phase = .awaiting .identity) ∨
    (∃ q a, nextTurn s = .hostRead a ∧ s.port = [] ∧ s.host.phase = .awaiting q ∧
      ((∃ q', s'.host.phase = .awaiting q') ∨ s'.host.phase = .negotiated ∨
        q = .identity ∧ ∃ e, s'.host.phase = .failed e)) ∨
    (∃ r, nextTurn s = .hostAcquire r ∧ s.host.phase = .negotiated ∧ s'.host.phase = .acquiring s.sink.length) ∨
    (nextTurn s = .hostFollow ∧ s.port = [] ∧
      ((∃ m, s.host.phase = .acquiring m ∧ s'.host.phase = .polling m ∧ .endOfAcquisition ∉ s.sink.drop m) ∨
        (∃ m, s.host.phase = .polling m ∧ s'.host.phase = .acquiring m ∧ s.rdata64 ≠ 4#64) ∨
        (∃ m, s'.host.phase = .collecting .totalSamples ∧
          (s.host.phase = .acquiring m ∧ .endOfAcquisition ∈ s.sink.drop m ∨
            s.host.phase = .polling m ∧ s.rdata64 = 4#64)) ∨
        (s.host.phase = .collecting .totalSamples ∧ s'.host.phase = .collecting .delayValue) ∨
        (s.host.phase = .collecting .delayValue ∧ s'.host.phase = .collecting .status) ∨
        (s.host.phase = .collecting .status ∧ s'.host.phase = .negotiated)))

/-- 70_reset_and_hazards.md R292, steps 6 and 7: once END has come, seven turns of the HOST read TOTAL_SAMPLES, DELAY_VALUE and
STATUS into its record, and nothing else changes but RDATA64. That the HOST takes a result from RDATA64 once its READ_REG
has been issued is the model's reading (notes/assumptions/10.md, 20.md). -/
def Obligations.HostReadsTheResultsOfAnAcquisition : Prop :=
  ∀ (s : State) (m : Nat), s.host.phase = .acquiring m → .endOfAcquisition ∈ s.sink.drop m → s.port = [] →
    ∃ t, takeTurns [.hostFollow, .hostOp, .hostFollow, .hostOp, .hostFollow, .hostOp, .hostFollow] s = .next t ∧
      t.host = { s.host with
        phase := .negotiated
        results := ⟨some (BitVec.ofNat 64 s.totalSamples), some (BitVec.ofNat 64 s.delayValue),
          some (BitVec.ofNat 64 s.status.toNat)⟩ } ∧
      { t with host := s.host, rdata64 := s.rdata64 } = s

/-- Source example S8: a version-1 device with no features is asked for its identity, its features and its widths only; then the block is
configured with the widths and code width 0, and every channel name is synthesized.
The HOST's records before the session are the model's choice (notes/assumptions/8.md, 20.md). -/
def Obligations.DeviceWithoutFeaturesIsAskedNothingMore : Prop :=
  ∀ widths : List Byte, widths.length = 8 →
    let out := negotiate [.ok [0x69#8, 0x64#8, 0x62#8, 0x67#8], .ok [0#8, 0#8, 0#8, 0#8], .ok widths]
      (startNegotiation HostState.initial)
    out.1.phase = .negotiated ∧ wireOfProgram out.2 = [0xBB#8, 0x10#8, 0xAA#8] ∧
    out.1.caps.dataWidth = le (widths.take 4) ∧ out.1.caps.addrWidth = le (widths.drop 4) ∧
    out.1.caps.runlengthCodeWidth = 0#8 ∧ out.1.caps.sampleRate = none ∧
    (∀ i, out.1.caps.channelName i = .synthesized ("CH" ++ i.repr)) ∧
    ∀ s : State, s.state = .idle → ∃ t, takeTurns [.hostOp, .hostOp, .hostOp] { s with port := out.2.drop 3 } = .next t ∧
      t.dataWidth.toNat = le (widths.take 4) ∧ t.addrWidth.toNat = le (widths.drop 4) ∧ t.rlcWidth = 0#8 ∧
      t.limitSamples = BitVec.ofNat 64 (2 ^ le (widths.drop 4))

/-- 10_state.md R44, 20_memory.md R65: the HOST's own turns and the DEVICE's leave every register, buffer and stream of the block as
it is, but for the RX stream.
When the HOST moves is the model's reading (notes/assumptions/20.md). -/
def Obligations.HostAndDeviceLeaveTheBlockAlone : Prop :=
  ∀ (t : Turn) (s s' : State),
    (t = .hostNegotiate ∨ (∃ a, t = .hostRead a) ∨ (∃ r, t = .hostAcquire r) ∨ t = .hostFollow ∨
      (∃ items, t = .hostIssues items) ∨ ∃ bytes, t = .deviceSends bytes) →
    takeTurn t s = .next s' → { s' with host := s.host, port := s.port, rx := s.rx, draws := s.draws } = s
end

