-- ==== Sys2Proof/Laws/Memory.lean ====
section
/-! SUPPORT. Reads after writes, and the canonical form kept by every write. -/

namespace Sys2Proof.Machine

variable {α : Type}

@[simp] theorem Store.read_nil (a : Nat) : Store.read ([] : Store α) a = none := rfl

/-- A read after a write: the written value at its address, and what was there everywhere else. -/
theorem Store.read_write (m : Store α) (a b : Nat) (v : α) :
    Store.read (Store.write m a v) b = if b = a then some v else Store.read m b := by
  induction m with
  | nil =>
    simp only [Store.write, Store.read]
    split <;> split <;> simp_all <;> omega
  | cons e m ih =>
    obtain ⟨k, w⟩ := e
    simp only [Store.write]
    split
    · simp only [Store.read]; subst k
      by_cases h : a = b
      · simp [h]
      · simp [h, Ne.symm h]
    · split
      · simp only [Store.read]
        by_cases h : a = b
        · simp [h]
        · simp only [h, if_false, Ne.symm h]
          split
          · rw [if_neg (by omega), if_pos (by omega)]
          · rfl
      · simp only [Store.read, ih]
        by_cases h : b = a
        · subst b; rw [if_neg (by omega), if_neg (by omega)]; simp
        · simp [h]

/-- A write lists its address and keeps the other entries. -/
theorem Store.mem_write {m : Store α} {a : Nat} {v : α} {e : Nat × α} (h : e ∈ Store.write m a v) :
    e = (a, v) ∨ e ∈ m := by
  induction m with
  | nil => simpa [Store.write] using h
  | cons f m ih =>
    obtain ⟨k, w⟩ := f
    simp only [Store.write] at h
    split at h
    · simp only [List.mem_cons] at h ⊢; tauto
    · split at h
      · simpa using h
      · simp only [List.mem_cons] at h ⊢
        rcases h with h | h
        · tauto
        · have := ih h; tauto

/-- A write keeps the canonical form. -/
theorem Store.write_wf {m : Store α} (a : Nat) (v : α) (h : Store.wf m) : Store.wf (Store.write m a v) := by
  induction m with
  | nil => simp [Store.write, Store.wf]
  | cons e m ih =>
    obtain ⟨k, w⟩ := e
    obtain ⟨hk, hm⟩ := List.pairwise_cons.mp h
    simp only [Store.write]
    split
    · subst k; exact List.pairwise_cons.mpr ⟨fun x hx => hk x hx, hm⟩
    · split
      · refine List.pairwise_cons.mpr ⟨fun x hx => ?_, h⟩
        rcases List.mem_cons.mp hx with rfl | hx
        · assumption
        · have := hk x hx; simp at this ⊢; omega
      · refine List.pairwise_cons.mpr ⟨fun x hx => ?_, ih hm⟩
        rcases Store.mem_write hx with rfl | hx
        · simp; omega
        · exact hk x hx

/-- A write below a bound keeps every address below it. -/
theorem Store.write_below {m : Store α} {a n : Nat} (v : α) (h : Store.below m n) (ha : a < n) :
    Store.below (Store.write m a v) n := by
  intro e he
  rcases Store.mem_write he with rfl | he
  · exact ha
  · exact h e he

/-- A read after a run of writes. -/
theorem Store.read_writeRun (m : Store α) (a b : Nat) (vs : List α) :
    Store.read (Store.writeRun m a vs) b =
      if a ≤ b ∧ b < a + vs.length then vs[b - a]? else Store.read m b := by
  induction vs generalizing m a with
  | nil => simp only [Store.writeRun, List.length_nil]; rw [if_neg (by omega)]
  | cons v vs ih =>
    simp only [Store.writeRun, ih, Store.read_write, List.length_cons]
    by_cases h : b = a
    · subst b; simp
    · by_cases h1 : a + 1 ≤ b ∧ b < a + 1 + vs.length
      · rw [if_pos h1, if_pos (by omega), show b - a = (b - (a + 1)) + 1 by omega, List.getElem?_cons_succ]
      · rw [if_neg h1, if_neg h, if_neg (by omega)]

/-- A run of writes keeps the canonical form. -/
theorem Store.writeRun_wf {m : Store α} (a : Nat) (vs : List α) (h : Store.wf m) :
    Store.wf (Store.writeRun m a vs) := by
  induction vs generalizing m a with
  | nil => exact h
  | cons v vs ih => exact ih (a + 1) (Store.write_wf a v h)

/-- A run of writes that ends at or below a bound keeps every address below it. -/
theorem Store.writeRun_below {m : Store α} {a n : Nat} (vs : List α) (h : Store.below m n) (ha : a + vs.length ≤ n) :
    Store.below (Store.writeRun m a vs) n := by
  induction vs generalizing m a with
  | nil => exact h
  | cons v vs ih =>
    simp only [List.length_cons] at ha
    exact ih (Store.write_below v h (by omega)) (by omega)

/-- A run of writes that starts where the written bytes end fills the space that much further. -/
theorem Store.writeRun_filled {m : Store α} {a : Nat} (vs : List α) (h : Store.filled m a) :
    Store.filled (Store.writeRun m a vs) (a + vs.length) := by
  intro b hb
  rw [Store.read_writeRun]
  split
  · rename_i hr
    rw [List.getElem?_eq_getElem (by omega)]; rfl
  · exact h b (by omega)

/-- A listed value is an entry. -/
theorem Store.mem_of_read {m : Store α} {a : Nat} {v : α} (h : Store.read m a = some v) : (a, v) ∈ m := by
  induction m with
  | nil => simp at h
  | cons e m ih =>
    obtain ⟨k, w⟩ := e
    simp only [Store.read] at h
    split at h
    · simp_all
    · split at h
      · cases h
      · exact List.mem_cons_of_mem _ (ih h)

/-- Nothing is written in an empty store. -/
theorem Store.filled_zero (m : Store α) : Store.filled m 0 := fun a h => by omega

@[simp] theorem Store.below_nil (n : Nat) : Store.below ([] : Store α) n := fun e h => by simp at h

end Sys2Proof.Machine
end

