-- ==== Sys2Proof/Laws/State.lean ====
section
/-! SUPPORT. One lemma per field per state update, true by unfolding the update once. -/

namespace Sys2Proof.Machine

/-! ### setStatus -/

@[simp] theorem setStatus_params (e : BlockException) (s : State) : (setStatus e s).params = s.params := rfl
@[simp] theorem setStatus_dataWidth (e : BlockException) (s : State) : (setStatus e s).dataWidth = s.dataWidth := rfl
@[simp] theorem setStatus_addrWidth (e : BlockException) (s : State) : (setStatus e s).addrWidth = s.addrWidth := rfl
@[simp] theorem setStatus_rlcWidth (e : BlockException) (s : State) : (setStatus e s).rlcWidth = s.rlcWidth := rfl
@[simp] theorem setStatus_limitSamples (e : BlockException) (s : State) : (setStatus e s).limitSamples = s.limitSamples := rfl
@[simp] theorem setStatus_captureRatio (e : BlockException) (s : State) : (setStatus e s).captureRatio = s.captureRatio := rfl
@[simp] theorem setStatus_state (e : BlockException) (s : State) : (setStatus e s).state = s.state := rfl
@[simp] theorem setStatus_status (e : BlockException) (s : State) : (setStatus e s).status = s.status ||| e.bit := rfl
@[simp] theorem setStatus_transferredBytes (e : BlockException) (s : State) : (setStatus e s).transferredBytes = s.transferredBytes := rfl
@[simp] theorem setStatus_totalSamples (e : BlockException) (s : State) : (setStatus e s).totalSamples = s.totalSamples := rfl
@[simp] theorem setStatus_delayRaw (e : BlockException) (s : State) : (setStatus e s).delayRaw = s.delayRaw := rfl
@[simp] theorem setStatus_delayValue (e : BlockException) (s : State) : (setStatus e s).delayValue = s.delayValue := rfl
@[simp] theorem setStatus_rxEn (e : BlockException) (s : State) : (setStatus e s).rxEn = s.rxEn := rfl
@[simp] theorem setStatus_rdata64 (e : BlockException) (s : State) : (setStatus e s).rdata64 = s.rdata64 := rfl
@[simp] theorem setStatus_rawbuf (e : BlockException) (s : State) : (setStatus e s).rawbuf = s.rawbuf := rfl
@[simp] theorem setStatus_rpt (e : BlockException) (s : State) : (setStatus e s).rpt = s.rpt := rfl
@[simp] theorem setStatus_outbuf (e : BlockException) (s : State) : (setStatus e s).outbuf = s.outbuf := rfl
@[simp] theorem setStatus_outSrc (e : BlockException) (s : State) : (setStatus e s).outSrc = s.outSrc := rfl
@[simp] theorem setStatus_delivPhase (e : BlockException) (s : State) : (setStatus e s).delivPhase = s.delivPhase := rfl
@[simp] theorem setStatus_tx (e : BlockException) (s : State) : (setStatus e s).tx = s.tx := rfl
@[simp] theorem setStatus_rx (e : BlockException) (s : State) : (setStatus e s).rx = s.rx := rfl
@[simp] theorem setStatus_sink (e : BlockException) (s : State) : (setStatus e s).sink = s.sink := rfl
@[simp] theorem setStatus_host (e : BlockException) (s : State) : (setStatus e s).host = s.host := rfl
@[simp] theorem setStatus_port (e : BlockException) (s : State) : (setStatus e s).port = s.port := rfl
@[simp] theorem setStatus_schedule (e : BlockException) (s : State) : (setStatus e s).schedule = s.schedule := rfl
@[simp] theorem setStatus_answers (e : BlockException) (s : State) : (setStatus e s).answers = s.answers := rfl
@[simp] theorem setStatus_draws (e : BlockException) (s : State) : (setStatus e s).draws = s.draws := rfl
@[simp] theorem setStatus_epoch (e : BlockException) (s : State) : (setStatus e s).epoch = s.epoch := rfl

/-! ### clearStatus -/

@[simp] theorem clearStatus_params (v : Word64) (s : State) : (clearStatus v s).params = s.params := rfl
@[simp] theorem clearStatus_dataWidth (v : Word64) (s : State) : (clearStatus v s).dataWidth = s.dataWidth := rfl
@[simp] theorem clearStatus_addrWidth (v : Word64) (s : State) : (clearStatus v s).addrWidth = s.addrWidth := rfl
@[simp] theorem clearStatus_rlcWidth (v : Word64) (s : State) : (clearStatus v s).rlcWidth = s.rlcWidth := rfl
@[simp] theorem clearStatus_limitSamples (v : Word64) (s : State) : (clearStatus v s).limitSamples = s.limitSamples := rfl
@[simp] theorem clearStatus_captureRatio (v : Word64) (s : State) : (clearStatus v s).captureRatio = s.captureRatio := rfl
@[simp] theorem clearStatus_state (v : Word64) (s : State) : (clearStatus v s).state = s.state := rfl
@[simp] theorem clearStatus_status (v : Word64) (s : State) : (clearStatus v s).status = s.status &&& ~~~ (v.setWidth 8) := rfl
@[simp] theorem clearStatus_transferredBytes (v : Word64) (s : State) : (clearStatus v s).transferredBytes = s.transferredBytes := rfl
@[simp] theorem clearStatus_totalSamples (v : Word64) (s : State) : (clearStatus v s).totalSamples = s.totalSamples := rfl
@[simp] theorem clearStatus_delayRaw (v : Word64) (s : State) : (clearStatus v s).delayRaw = s.delayRaw := rfl
@[simp] theorem clearStatus_delayValue (v : Word64) (s : State) : (clearStatus v s).delayValue = s.delayValue := rfl
@[simp] theorem clearStatus_rxEn (v : Word64) (s : State) : (clearStatus v s).rxEn = s.rxEn := rfl
@[simp] theorem clearStatus_rdata64 (v : Word64) (s : State) : (clearStatus v s).rdata64 = s.rdata64 := rfl
@[simp] theorem clearStatus_rawbuf (v : Word64) (s : State) : (clearStatus v s).rawbuf = s.rawbuf := rfl
@[simp] theorem clearStatus_rpt (v : Word64) (s : State) : (clearStatus v s).rpt = s.rpt := rfl
@[simp] theorem clearStatus_outbuf (v : Word64) (s : State) : (clearStatus v s).outbuf = s.outbuf := rfl
@[simp] theorem clearStatus_outSrc (v : Word64) (s : State) : (clearStatus v s).outSrc = s.outSrc := rfl
@[simp] theorem clearStatus_delivPhase (v : Word64) (s : State) : (clearStatus v s).delivPhase = s.delivPhase := rfl
@[simp] theorem clearStatus_tx (v : Word64) (s : State) : (clearStatus v s).tx = s.tx := rfl
@[simp] theorem clearStatus_rx (v : Word64) (s : State) : (clearStatus v s).rx = s.rx := rfl
@[simp] theorem clearStatus_sink (v : Word64) (s : State) : (clearStatus v s).sink = s.sink := rfl
@[simp] theorem clearStatus_host (v : Word64) (s : State) : (clearStatus v s).host = s.host := rfl
@[simp] theorem clearStatus_port (v : Word64) (s : State) : (clearStatus v s).port = s.port := rfl
@[simp] theorem clearStatus_schedule (v : Word64) (s : State) : (clearStatus v s).schedule = s.schedule := rfl
@[simp] theorem clearStatus_answers (v : Word64) (s : State) : (clearStatus v s).answers = s.answers := rfl
@[simp] theorem clearStatus_draws (v : Word64) (s : State) : (clearStatus v s).draws = s.draws := rfl
@[simp] theorem clearStatus_epoch (v : Word64) (s : State) : (clearStatus v s).epoch = s.epoch := rfl

/-! ### sinkEvent -/

@[simp] theorem sinkEvent_params (ev : SinkEvent) (s : State) : (sinkEvent ev s).params = s.params := rfl
@[simp] theorem sinkEvent_dataWidth (ev : SinkEvent) (s : State) : (sinkEvent ev s).dataWidth = s.dataWidth := rfl
@[simp] theorem sinkEvent_addrWidth (ev : SinkEvent) (s : State) : (sinkEvent ev s).addrWidth = s.addrWidth := rfl
@[simp] theorem sinkEvent_rlcWidth (ev : SinkEvent) (s : State) : (sinkEvent ev s).rlcWidth = s.rlcWidth := rfl
@[simp] theorem sinkEvent_limitSamples (ev : SinkEvent) (s : State) : (sinkEvent ev s).limitSamples = s.limitSamples := rfl
@[simp] theorem sinkEvent_captureRatio (ev : SinkEvent) (s : State) : (sinkEvent ev s).captureRatio = s.captureRatio := rfl
@[simp] theorem sinkEvent_state (ev : SinkEvent) (s : State) : (sinkEvent ev s).state = s.state := rfl
@[simp] theorem sinkEvent_status (ev : SinkEvent) (s : State) : (sinkEvent ev s).status = s.status := rfl
@[simp] theorem sinkEvent_transferredBytes (ev : SinkEvent) (s : State) : (sinkEvent ev s).transferredBytes = s.transferredBytes := rfl
@[simp] theorem sinkEvent_totalSamples (ev : SinkEvent) (s : State) : (sinkEvent ev s).totalSamples = s.totalSamples := rfl
@[simp] theorem sinkEvent_delayRaw (ev : SinkEvent) (s : State) : (sinkEvent ev s).delayRaw = s.delayRaw := rfl
@[simp] theorem sinkEvent_delayValue (ev : SinkEvent) (s : State) : (sinkEvent ev s).delayValue = s.delayValue := rfl
@[simp] theorem sinkEvent_rxEn (ev : SinkEvent) (s : State) : (sinkEvent ev s).rxEn = s.rxEn := rfl
@[simp] theorem sinkEvent_rdata64 (ev : SinkEvent) (s : State) : (sinkEvent ev s).rdata64 = s.rdata64 := rfl
@[simp] theorem sinkEvent_rawbuf (ev : SinkEvent) (s : State) : (sinkEvent ev s).rawbuf = s.rawbuf := rfl
@[simp] theorem sinkEvent_rpt (ev : SinkEvent) (s : State) : (sinkEvent ev s).rpt = s.rpt := rfl
@[simp] theorem sinkEvent_outbuf (ev : SinkEvent) (s : State) : (sinkEvent ev s).outbuf = s.outbuf := rfl
@[simp] theorem sinkEvent_outSrc (ev : SinkEvent) (s : State) : (sinkEvent ev s).outSrc = s.outSrc := rfl
@[simp] theorem sinkEvent_delivPhase (ev : SinkEvent) (s : State) : (sinkEvent ev s).delivPhase = s.delivPhase := rfl
@[simp] theorem sinkEvent_tx (ev : SinkEvent) (s : State) : (sinkEvent ev s).tx = s.tx := rfl
@[simp] theorem sinkEvent_rx (ev : SinkEvent) (s : State) : (sinkEvent ev s).rx = s.rx := rfl
@[simp] theorem sinkEvent_sink (ev : SinkEvent) (s : State) : (sinkEvent ev s).sink = s.sink ++ [ev] := rfl
@[simp] theorem sinkEvent_host (ev : SinkEvent) (s : State) : (sinkEvent ev s).host = s.host := rfl
@[simp] theorem sinkEvent_port (ev : SinkEvent) (s : State) : (sinkEvent ev s).port = s.port := rfl
@[simp] theorem sinkEvent_schedule (ev : SinkEvent) (s : State) : (sinkEvent ev s).schedule = s.schedule := rfl
@[simp] theorem sinkEvent_answers (ev : SinkEvent) (s : State) : (sinkEvent ev s).answers = s.answers := rfl
@[simp] theorem sinkEvent_draws (ev : SinkEvent) (s : State) : (sinkEvent ev s).draws = s.draws := rfl
@[simp] theorem sinkEvent_epoch (ev : SinkEvent) (s : State) : (sinkEvent ev s).epoch = s.epoch := rfl

/-! ### releaseBuffers -/

@[simp] theorem releaseBuffers_params (s : State) : (releaseBuffers s).params = s.params := rfl
@[simp] theorem releaseBuffers_dataWidth (s : State) : (releaseBuffers s).dataWidth = s.dataWidth := rfl
@[simp] theorem releaseBuffers_addrWidth (s : State) : (releaseBuffers s).addrWidth = s.addrWidth := rfl
@[simp] theorem releaseBuffers_rlcWidth (s : State) : (releaseBuffers s).rlcWidth = s.rlcWidth := rfl
@[simp] theorem releaseBuffers_limitSamples (s : State) : (releaseBuffers s).limitSamples = s.limitSamples := rfl
@[simp] theorem releaseBuffers_captureRatio (s : State) : (releaseBuffers s).captureRatio = s.captureRatio := rfl
@[simp] theorem releaseBuffers_state (s : State) : (releaseBuffers s).state = s.state := rfl
@[simp] theorem releaseBuffers_status (s : State) : (releaseBuffers s).status = s.status := rfl
@[simp] theorem releaseBuffers_transferredBytes (s : State) : (releaseBuffers s).transferredBytes = s.transferredBytes := rfl
@[simp] theorem releaseBuffers_totalSamples (s : State) : (releaseBuffers s).totalSamples = s.totalSamples := rfl
@[simp] theorem releaseBuffers_delayRaw (s : State) : (releaseBuffers s).delayRaw = s.delayRaw := rfl
@[simp] theorem releaseBuffers_delayValue (s : State) : (releaseBuffers s).delayValue = s.delayValue := rfl
@[simp] theorem releaseBuffers_rxEn (s : State) : (releaseBuffers s).rxEn = s.rxEn := rfl
@[simp] theorem releaseBuffers_rdata64 (s : State) : (releaseBuffers s).rdata64 = s.rdata64 := rfl
@[simp] theorem releaseBuffers_rawbuf (s : State) : (releaseBuffers s).rawbuf = [] := rfl
@[simp] theorem releaseBuffers_rpt (s : State) : (releaseBuffers s).rpt = [] := rfl
@[simp] theorem releaseBuffers_outbuf (s : State) : (releaseBuffers s).outbuf = [] := rfl
@[simp] theorem releaseBuffers_outSrc (s : State) : (releaseBuffers s).outSrc = s.outSrc := rfl
@[simp] theorem releaseBuffers_delivPhase (s : State) : (releaseBuffers s).delivPhase = s.delivPhase := rfl
@[simp] theorem releaseBuffers_tx (s : State) : (releaseBuffers s).tx = s.tx := rfl
@[simp] theorem releaseBuffers_rx (s : State) : (releaseBuffers s).rx = s.rx := rfl
@[simp] theorem releaseBuffers_sink (s : State) : (releaseBuffers s).sink = s.sink := rfl
@[simp] theorem releaseBuffers_host (s : State) : (releaseBuffers s).host = s.host := rfl
@[simp] theorem releaseBuffers_port (s : State) : (releaseBuffers s).port = s.port := rfl
@[simp] theorem releaseBuffers_schedule (s : State) : (releaseBuffers s).schedule = s.schedule := rfl
@[simp] theorem releaseBuffers_answers (s : State) : (releaseBuffers s).answers = s.answers := rfl
@[simp] theorem releaseBuffers_draws (s : State) : (releaseBuffers s).draws = s.draws := rfl
@[simp] theorem releaseBuffers_epoch (s : State) : (releaseBuffers s).epoch = s.epoch + 1 := rfl

/-! ### enterDone -/

@[simp] theorem enterDone_params (s : State) : (enterDone s).params = s.params := rfl
@[simp] theorem enterDone_dataWidth (s : State) : (enterDone s).dataWidth = s.dataWidth := rfl
@[simp] theorem enterDone_addrWidth (s : State) : (enterDone s).addrWidth = s.addrWidth := rfl
@[simp] theorem enterDone_rlcWidth (s : State) : (enterDone s).rlcWidth = s.rlcWidth := rfl
@[simp] theorem enterDone_limitSamples (s : State) : (enterDone s).limitSamples = s.limitSamples := rfl
@[simp] theorem enterDone_captureRatio (s : State) : (enterDone s).captureRatio = s.captureRatio := rfl
@[simp] theorem enterDone_state (s : State) : (enterDone s).state = .done := rfl
@[simp] theorem enterDone_status (s : State) : (enterDone s).status = s.status := rfl
@[simp] theorem enterDone_transferredBytes (s : State) : (enterDone s).transferredBytes = s.transferredBytes := rfl
@[simp] theorem enterDone_totalSamples (s : State) : (enterDone s).totalSamples = s.totalSamples := rfl
@[simp] theorem enterDone_delayRaw (s : State) : (enterDone s).delayRaw = s.delayRaw := rfl
@[simp] theorem enterDone_delayValue (s : State) : (enterDone s).delayValue = s.delayValue := rfl
@[simp] theorem enterDone_rxEn (s : State) : (enterDone s).rxEn = false := rfl
@[simp] theorem enterDone_rdata64 (s : State) : (enterDone s).rdata64 = s.rdata64 := rfl
@[simp] theorem enterDone_rawbuf (s : State) : (enterDone s).rawbuf = [] := rfl
@[simp] theorem enterDone_rpt (s : State) : (enterDone s).rpt = [] := rfl
@[simp] theorem enterDone_outbuf (s : State) : (enterDone s).outbuf = [] := rfl
@[simp] theorem enterDone_outSrc (s : State) : (enterDone s).outSrc = s.outSrc := rfl
@[simp] theorem enterDone_delivPhase (s : State) : (enterDone s).delivPhase = s.delivPhase := rfl
@[simp] theorem enterDone_tx (s : State) : (enterDone s).tx = s.tx := rfl
@[simp] theorem enterDone_rx (s : State) : (enterDone s).rx = s.rx := rfl
@[simp] theorem enterDone_sink (s : State) : (enterDone s).sink = s.sink ++ [.endOfAcquisition] := rfl
@[simp] theorem enterDone_host (s : State) : (enterDone s).host = s.host := rfl
@[simp] theorem enterDone_port (s : State) : (enterDone s).port = s.port := rfl
@[simp] theorem enterDone_schedule (s : State) : (enterDone s).schedule = s.schedule := rfl
@[simp] theorem enterDone_answers (s : State) : (enterDone s).answers = s.answers := rfl
@[simp] theorem enterDone_draws (s : State) : (enterDone s).draws = s.draws := rfl
@[simp] theorem enterDone_epoch (s : State) : (enterDone s).epoch = s.epoch + 1 := rfl

/-! ### useAnswer -/

@[simp] theorem useAnswer_params (s : State) : (useAnswer s).params = s.params := rfl
@[simp] theorem useAnswer_dataWidth (s : State) : (useAnswer s).dataWidth = s.dataWidth := rfl
@[simp] theorem useAnswer_addrWidth (s : State) : (useAnswer s).addrWidth = s.addrWidth := rfl
@[simp] theorem useAnswer_rlcWidth (s : State) : (useAnswer s).rlcWidth = s.rlcWidth := rfl
@[simp] theorem useAnswer_limitSamples (s : State) : (useAnswer s).limitSamples = s.limitSamples := rfl
@[simp] theorem useAnswer_captureRatio (s : State) : (useAnswer s).captureRatio = s.captureRatio := rfl
@[simp] theorem useAnswer_state (s : State) : (useAnswer s).state = s.state := rfl
@[simp] theorem useAnswer_status (s : State) : (useAnswer s).status = s.status := rfl
@[simp] theorem useAnswer_transferredBytes (s : State) : (useAnswer s).transferredBytes = s.transferredBytes := rfl
@[simp] theorem useAnswer_totalSamples (s : State) : (useAnswer s).totalSamples = s.totalSamples := rfl
@[simp] theorem useAnswer_delayRaw (s : State) : (useAnswer s).delayRaw = s.delayRaw := rfl
@[simp] theorem useAnswer_delayValue (s : State) : (useAnswer s).delayValue = s.delayValue := rfl
@[simp] theorem useAnswer_rxEn (s : State) : (useAnswer s).rxEn = s.rxEn := rfl
@[simp] theorem useAnswer_rdata64 (s : State) : (useAnswer s).rdata64 = s.rdata64 := rfl
@[simp] theorem useAnswer_rawbuf (s : State) : (useAnswer s).rawbuf = s.rawbuf := rfl
@[simp] theorem useAnswer_rpt (s : State) : (useAnswer s).rpt = s.rpt := rfl
@[simp] theorem useAnswer_outbuf (s : State) : (useAnswer s).outbuf = s.outbuf := rfl
@[simp] theorem useAnswer_outSrc (s : State) : (useAnswer s).outSrc = s.outSrc := rfl
@[simp] theorem useAnswer_delivPhase (s : State) : (useAnswer s).delivPhase = s.delivPhase := rfl
@[simp] theorem useAnswer_tx (s : State) : (useAnswer s).tx = s.tx := rfl
@[simp] theorem useAnswer_rx (s : State) : (useAnswer s).rx = s.rx := rfl
@[simp] theorem useAnswer_sink (s : State) : (useAnswer s).sink = s.sink := rfl
@[simp] theorem useAnswer_host (s : State) : (useAnswer s).host = s.host := rfl
@[simp] theorem useAnswer_port (s : State) : (useAnswer s).port = s.port := rfl
@[simp] theorem useAnswer_schedule (s : State) : (useAnswer s).schedule = s.schedule := rfl
@[simp] theorem useAnswer_answers (s : State) : (useAnswer s).answers = s.answers.tail := rfl
@[simp] theorem useAnswer_draws (s : State) : (useAnswer s).draws = s.draws + 1 := rfl
@[simp] theorem useAnswer_epoch (s : State) : (useAnswer s).epoch = s.epoch := rfl

/-! ### armLatch -/

@[simp] theorem armLatch_params (s : State) : (armLatch s).params = s.params := rfl
@[simp] theorem armLatch_dataWidth (s : State) : (armLatch s).dataWidth = s.dataWidth := rfl
@[simp] theorem armLatch_addrWidth (s : State) : (armLatch s).addrWidth = s.addrWidth := rfl
@[simp] theorem armLatch_rlcWidth (s : State) : (armLatch s).rlcWidth = s.rlcWidth := rfl
@[simp] theorem armLatch_limitSamples (s : State) : (armLatch s).limitSamples = s.limitSamples := rfl
@[simp] theorem armLatch_captureRatio (s : State) : (armLatch s).captureRatio = s.captureRatio := rfl
@[simp] theorem armLatch_state (s : State) : (armLatch s).state = s.state := rfl
@[simp] theorem armLatch_status (s : State) : (armLatch s).status = s.status := rfl
@[simp] theorem armLatch_transferredBytes (s : State) : (armLatch s).transferredBytes = 0 := rfl
@[simp] theorem armLatch_totalSamples (s : State) : (armLatch s).totalSamples = 0 := rfl
@[simp] theorem armLatch_delayRaw (s : State) : (armLatch s).delayRaw = delayRawOf s.limit s.captureRatio.toNat := rfl
@[simp] theorem armLatch_delayValue (s : State) : (armLatch s).delayValue = 0 := rfl
@[simp] theorem armLatch_rxEn (s : State) : (armLatch s).rxEn = s.rxEn := rfl
@[simp] theorem armLatch_rdata64 (s : State) : (armLatch s).rdata64 = s.rdata64 := rfl
@[simp] theorem armLatch_rawbuf (s : State) : (armLatch s).rawbuf = s.rawbuf := rfl
@[simp] theorem armLatch_rpt (s : State) : (armLatch s).rpt = s.rpt := rfl
@[simp] theorem armLatch_outbuf (s : State) : (armLatch s).outbuf = s.outbuf := rfl
@[simp] theorem armLatch_outSrc (s : State) : (armLatch s).outSrc = s.outSrc := rfl
@[simp] theorem armLatch_delivPhase (s : State) : (armLatch s).delivPhase = s.delivPhase := rfl
@[simp] theorem armLatch_tx (s : State) : (armLatch s).tx = s.tx := rfl
@[simp] theorem armLatch_rx (s : State) : (armLatch s).rx = s.rx := rfl
@[simp] theorem armLatch_sink (s : State) : (armLatch s).sink = s.sink := rfl
@[simp] theorem armLatch_host (s : State) : (armLatch s).host = s.host := rfl
@[simp] theorem armLatch_port (s : State) : (armLatch s).port = s.port := rfl
@[simp] theorem armLatch_schedule (s : State) : (armLatch s).schedule = s.schedule := rfl
@[simp] theorem armLatch_answers (s : State) : (armLatch s).answers = s.answers := rfl
@[simp] theorem armLatch_draws (s : State) : (armLatch s).draws = s.draws := rfl
@[simp] theorem armLatch_epoch (s : State) : (armLatch s).epoch = s.epoch := rfl

/-! ### completeDecode -/

@[simp] theorem completeDecode_params (s : State) : (completeDecode s).params = s.params := rfl
@[simp] theorem completeDecode_dataWidth (s : State) : (completeDecode s).dataWidth = s.dataWidth := rfl
@[simp] theorem completeDecode_addrWidth (s : State) : (completeDecode s).addrWidth = s.addrWidth := rfl
@[simp] theorem completeDecode_rlcWidth (s : State) : (completeDecode s).rlcWidth = s.rlcWidth := rfl
@[simp] theorem completeDecode_limitSamples (s : State) : (completeDecode s).limitSamples = s.limitSamples := rfl
@[simp] theorem completeDecode_captureRatio (s : State) : (completeDecode s).captureRatio = s.captureRatio := rfl
@[simp] theorem completeDecode_state (s : State) : (completeDecode s).state = .delivering := rfl
@[simp] theorem completeDecode_status (s : State) : (completeDecode s).status = s.status := rfl
@[simp] theorem completeDecode_transferredBytes (s : State) : (completeDecode s).transferredBytes = s.transferredBytes := rfl
@[simp] theorem completeDecode_totalSamples (s : State) : (completeDecode s).totalSamples = s.totalSamples := rfl
@[simp] theorem completeDecode_delayRaw (s : State) : (completeDecode s).delayRaw = s.delayRaw := rfl
@[simp] theorem completeDecode_delayValue (s : State) : (completeDecode s).delayValue = s.delayValue := rfl
@[simp] theorem completeDecode_rxEn (s : State) : (completeDecode s).rxEn = s.rxEn := rfl
@[simp] theorem completeDecode_rdata64 (s : State) : (completeDecode s).rdata64 = s.rdata64 := rfl
@[simp] theorem completeDecode_rawbuf (s : State) : (completeDecode s).rawbuf = s.rawbuf := rfl
@[simp] theorem completeDecode_rpt (s : State) : (completeDecode s).rpt = s.rpt := rfl
@[simp] theorem completeDecode_outbuf (s : State) : (completeDecode s).outbuf = s.outbuf := rfl
@[simp] theorem completeDecode_outSrc (s : State) : (completeDecode s).outSrc = s.outSrc := rfl
@[simp] theorem completeDecode_delivPhase (s : State) : (completeDecode s).delivPhase = if 0 < s.delayValue then .pre else .trig := rfl
@[simp] theorem completeDecode_tx (s : State) : (completeDecode s).tx = s.tx := rfl
@[simp] theorem completeDecode_rx (s : State) : (completeDecode s).rx = s.rx := rfl
@[simp] theorem completeDecode_sink (s : State) : (completeDecode s).sink = s.sink := rfl
@[simp] theorem completeDecode_host (s : State) : (completeDecode s).host = s.host := rfl
@[simp] theorem completeDecode_port (s : State) : (completeDecode s).port = s.port := rfl
@[simp] theorem completeDecode_schedule (s : State) : (completeDecode s).schedule = s.schedule := rfl
@[simp] theorem completeDecode_answers (s : State) : (completeDecode s).answers = s.answers := rfl
@[simp] theorem completeDecode_draws (s : State) : (completeDecode s).draws = s.draws := rfl
@[simp] theorem completeDecode_epoch (s : State) : (completeDecode s).epoch = s.epoch := rfl

/-! ### deviceSends -/

@[simp] theorem deviceSends_params (bs : List Byte) (s : State) : (deviceSends bs s).params = s.params := rfl
@[simp] theorem deviceSends_dataWidth (bs : List Byte) (s : State) : (deviceSends bs s).dataWidth = s.dataWidth := rfl
@[simp] theorem deviceSends_addrWidth (bs : List Byte) (s : State) : (deviceSends bs s).addrWidth = s.addrWidth := rfl
@[simp] theorem deviceSends_rlcWidth (bs : List Byte) (s : State) : (deviceSends bs s).rlcWidth = s.rlcWidth := rfl
@[simp] theorem deviceSends_limitSamples (bs : List Byte) (s : State) : (deviceSends bs s).limitSamples = s.limitSamples := rfl
@[simp] theorem deviceSends_captureRatio (bs : List Byte) (s : State) : (deviceSends bs s).captureRatio = s.captureRatio := rfl
@[simp] theorem deviceSends_state (bs : List Byte) (s : State) : (deviceSends bs s).state = s.state := rfl
@[simp] theorem deviceSends_status (bs : List Byte) (s : State) : (deviceSends bs s).status = s.status := rfl
@[simp] theorem deviceSends_transferredBytes (bs : List Byte) (s : State) : (deviceSends bs s).transferredBytes = s.transferredBytes := rfl
@[simp] theorem deviceSends_totalSamples (bs : List Byte) (s : State) : (deviceSends bs s).totalSamples = s.totalSamples := rfl
@[simp] theorem deviceSends_delayRaw (bs : List Byte) (s : State) : (deviceSends bs s).delayRaw = s.delayRaw := rfl
@[simp] theorem deviceSends_delayValue (bs : List Byte) (s : State) : (deviceSends bs s).delayValue = s.delayValue := rfl
@[simp] theorem deviceSends_rxEn (bs : List Byte) (s : State) : (deviceSends bs s).rxEn = s.rxEn := rfl
@[simp] theorem deviceSends_rdata64 (bs : List Byte) (s : State) : (deviceSends bs s).rdata64 = s.rdata64 := rfl
@[simp] theorem deviceSends_rawbuf (bs : List Byte) (s : State) : (deviceSends bs s).rawbuf = s.rawbuf := rfl
@[simp] theorem deviceSends_rpt (bs : List Byte) (s : State) : (deviceSends bs s).rpt = s.rpt := rfl
@[simp] theorem deviceSends_outbuf (bs : List Byte) (s : State) : (deviceSends bs s).outbuf = s.outbuf := rfl
@[simp] theorem deviceSends_outSrc (bs : List Byte) (s : State) : (deviceSends bs s).outSrc = s.outSrc := rfl
@[simp] theorem deviceSends_delivPhase (bs : List Byte) (s : State) : (deviceSends bs s).delivPhase = s.delivPhase := rfl
@[simp] theorem deviceSends_tx (bs : List Byte) (s : State) : (deviceSends bs s).tx = s.tx := rfl
@[simp] theorem deviceSends_rx (bs : List Byte) (s : State) : (deviceSends bs s).rx = s.rx ++ bs := rfl
@[simp] theorem deviceSends_sink (bs : List Byte) (s : State) : (deviceSends bs s).sink = s.sink := rfl
@[simp] theorem deviceSends_host (bs : List Byte) (s : State) : (deviceSends bs s).host = s.host := rfl
@[simp] theorem deviceSends_port (bs : List Byte) (s : State) : (deviceSends bs s).port = s.port := rfl
@[simp] theorem deviceSends_schedule (bs : List Byte) (s : State) : (deviceSends bs s).schedule = s.schedule := rfl
@[simp] theorem deviceSends_answers (bs : List Byte) (s : State) : (deviceSends bs s).answers = s.answers := rfl
@[simp] theorem deviceSends_draws (bs : List Byte) (s : State) : (deviceSends bs s).draws = s.draws := rfl
@[simp] theorem deviceSends_epoch (bs : List Byte) (s : State) : (deviceSends bs s).epoch = s.epoch := rfl

/-! ### hostDecides -/

@[simp] theorem hostDecides_params (hc : HostState × List Command) (s : State) : (hostDecides hc s).params = s.params := rfl
@[simp] theorem hostDecides_dataWidth (hc : HostState × List Command) (s : State) : (hostDecides hc s).dataWidth = s.dataWidth := rfl
@[simp] theorem hostDecides_addrWidth (hc : HostState × List Command) (s : State) : (hostDecides hc s).addrWidth = s.addrWidth := rfl
@[simp] theorem hostDecides_rlcWidth (hc : HostState × List Command) (s : State) : (hostDecides hc s).rlcWidth = s.rlcWidth := rfl
@[simp] theorem hostDecides_limitSamples (hc : HostState × List Command) (s : State) : (hostDecides hc s).limitSamples = s.limitSamples := rfl
@[simp] theorem hostDecides_captureRatio (hc : HostState × List Command) (s : State) : (hostDecides hc s).captureRatio = s.captureRatio := rfl
@[simp] theorem hostDecides_state (hc : HostState × List Command) (s : State) : (hostDecides hc s).state = s.state := rfl
@[simp] theorem hostDecides_status (hc : HostState × List Command) (s : State) : (hostDecides hc s).status = s.status := rfl
@[simp] theorem hostDecides_transferredBytes (hc : HostState × List Command) (s : State) : (hostDecides hc s).transferredBytes = s.transferredBytes := rfl
@[simp] theorem hostDecides_totalSamples (hc : HostState × List Command) (s : State) : (hostDecides hc s).totalSamples = s.totalSamples := rfl
@[simp] theorem hostDecides_delayRaw (hc : HostState × List Command) (s : State) : (hostDecides hc s).delayRaw = s.delayRaw := rfl
@[simp] theorem hostDecides_delayValue (hc : HostState × List Command) (s : State) : (hostDecides hc s).delayValue = s.delayValue := rfl
@[simp] theorem hostDecides_rxEn (hc : HostState × List Command) (s : State) : (hostDecides hc s).rxEn = s.rxEn := rfl
@[simp] theorem hostDecides_rdata64 (hc : HostState × List Command) (s : State) : (hostDecides hc s).rdata64 = s.rdata64 := rfl
@[simp] theorem hostDecides_rawbuf (hc : HostState × List Command) (s : State) : (hostDecides hc s).rawbuf = s.rawbuf := rfl
@[simp] theorem hostDecides_rpt (hc : HostState × List Command) (s : State) : (hostDecides hc s).rpt = s.rpt := rfl
@[simp] theorem hostDecides_outbuf (hc : HostState × List Command) (s : State) : (hostDecides hc s).outbuf = s.outbuf := rfl
@[simp] theorem hostDecides_outSrc (hc : HostState × List Command) (s : State) : (hostDecides hc s).outSrc = s.outSrc := rfl
@[simp] theorem hostDecides_delivPhase (hc : HostState × List Command) (s : State) : (hostDecides hc s).delivPhase = s.delivPhase := rfl
@[simp] theorem hostDecides_tx (hc : HostState × List Command) (s : State) : (hostDecides hc s).tx = s.tx := rfl
@[simp] theorem hostDecides_rx (hc : HostState × List Command) (s : State) : (hostDecides hc s).rx = s.rx := rfl
@[simp] theorem hostDecides_sink (hc : HostState × List Command) (s : State) : (hostDecides hc s).sink = s.sink := rfl
@[simp] theorem hostDecides_host (hc : HostState × List Command) (s : State) : (hostDecides hc s).host = hc.1 := rfl
@[simp] theorem hostDecides_port (hc : HostState × List Command) (s : State) : (hostDecides hc s).port = s.port ++ hc.2 := rfl
@[simp] theorem hostDecides_schedule (hc : HostState × List Command) (s : State) : (hostDecides hc s).schedule = s.schedule := rfl
@[simp] theorem hostDecides_answers (hc : HostState × List Command) (s : State) : (hostDecides hc s).answers = s.answers := rfl
@[simp] theorem hostDecides_draws (hc : HostState × List Command) (s : State) : (hostDecides hc s).draws = s.draws := rfl
@[simp] theorem hostDecides_epoch (hc : HostState × List Command) (s : State) : (hostDecides hc s).epoch = s.epoch := rfl

/-! ### resetBlock -/

@[simp] theorem resetBlock_params (s : State) : (resetBlock s).params = s.params := rfl
@[simp] theorem resetBlock_dataWidth (s : State) : (resetBlock s).dataWidth = State.reset.dataWidth := rfl
@[simp] theorem resetBlock_addrWidth (s : State) : (resetBlock s).addrWidth = State.reset.addrWidth := rfl
@[simp] theorem resetBlock_rlcWidth (s : State) : (resetBlock s).rlcWidth = State.reset.rlcWidth := rfl
@[simp] theorem resetBlock_limitSamples (s : State) : (resetBlock s).limitSamples = State.reset.limitSamples := rfl
@[simp] theorem resetBlock_captureRatio (s : State) : (resetBlock s).captureRatio = State.reset.captureRatio := rfl
@[simp] theorem resetBlock_state (s : State) : (resetBlock s).state = State.reset.state := rfl
@[simp] theorem resetBlock_status (s : State) : (resetBlock s).status = State.reset.status := rfl
@[simp] theorem resetBlock_transferredBytes (s : State) : (resetBlock s).transferredBytes = State.reset.transferredBytes := rfl
@[simp] theorem resetBlock_totalSamples (s : State) : (resetBlock s).totalSamples = State.reset.totalSamples := rfl
@[simp] theorem resetBlock_delayRaw (s : State) : (resetBlock s).delayRaw = State.reset.delayRaw := rfl
@[simp] theorem resetBlock_delayValue (s : State) : (resetBlock s).delayValue = State.reset.delayValue := rfl
@[simp] theorem resetBlock_rxEn (s : State) : (resetBlock s).rxEn = State.reset.rxEn := rfl
@[simp] theorem resetBlock_rdata64 (s : State) : (resetBlock s).rdata64 = State.reset.rdata64 := rfl
@[simp] theorem resetBlock_rawbuf (s : State) : (resetBlock s).rawbuf = State.reset.rawbuf := rfl
@[simp] theorem resetBlock_rpt (s : State) : (resetBlock s).rpt = State.reset.rpt := rfl
@[simp] theorem resetBlock_outbuf (s : State) : (resetBlock s).outbuf = State.reset.outbuf := rfl
@[simp] theorem resetBlock_outSrc (s : State) : (resetBlock s).outSrc = State.reset.outSrc := rfl
@[simp] theorem resetBlock_delivPhase (s : State) : (resetBlock s).delivPhase = State.reset.delivPhase := rfl
@[simp] theorem resetBlock_tx (s : State) : (resetBlock s).tx = s.tx := rfl
@[simp] theorem resetBlock_rx (s : State) : (resetBlock s).rx = s.rx := rfl
@[simp] theorem resetBlock_sink (s : State) : (resetBlock s).sink = s.sink := rfl
@[simp] theorem resetBlock_host (s : State) : (resetBlock s).host = s.host.newSession := rfl
@[simp] theorem resetBlock_port (s : State) : (resetBlock s).port = s.port := rfl
@[simp] theorem resetBlock_schedule (s : State) : (resetBlock s).schedule = s.schedule := rfl
@[simp] theorem resetBlock_answers (s : State) : (resetBlock s).answers = s.answers := rfl
@[simp] theorem resetBlock_draws (s : State) : (resetBlock s).draws = s.draws := rfl
@[simp] theorem resetBlock_epoch (s : State) : (resetBlock s).epoch = s.epoch + 1 := rfl

/-! ### placeItem -/

@[simp] theorem placeItem_params (c : Command) (s : State) : (placeItem c s).params = s.params := rfl
@[simp] theorem placeItem_dataWidth (c : Command) (s : State) : (placeItem c s).dataWidth = s.dataWidth := rfl
@[simp] theorem placeItem_addrWidth (c : Command) (s : State) : (placeItem c s).addrWidth = s.addrWidth := rfl
@[simp] theorem placeItem_rlcWidth (c : Command) (s : State) : (placeItem c s).rlcWidth = s.rlcWidth := rfl
@[simp] theorem placeItem_limitSamples (c : Command) (s : State) : (placeItem c s).limitSamples = s.limitSamples := rfl
@[simp] theorem placeItem_captureRatio (c : Command) (s : State) : (placeItem c s).captureRatio = s.captureRatio := rfl
@[simp] theorem placeItem_state (c : Command) (s : State) : (placeItem c s).state = s.state := rfl
@[simp] theorem placeItem_status (c : Command) (s : State) : (placeItem c s).status = s.status := rfl
@[simp] theorem placeItem_transferredBytes (c : Command) (s : State) : (placeItem c s).transferredBytes = s.transferredBytes := rfl
@[simp] theorem placeItem_totalSamples (c : Command) (s : State) : (placeItem c s).totalSamples = s.totalSamples := rfl
@[simp] theorem placeItem_delayRaw (c : Command) (s : State) : (placeItem c s).delayRaw = s.delayRaw := rfl
@[simp] theorem placeItem_delayValue (c : Command) (s : State) : (placeItem c s).delayValue = s.delayValue := rfl
@[simp] theorem placeItem_rxEn (c : Command) (s : State) : (placeItem c s).rxEn = s.rxEn := rfl
@[simp] theorem placeItem_rdata64 (c : Command) (s : State) : (placeItem c s).rdata64 = s.rdata64 := rfl
@[simp] theorem placeItem_rawbuf (c : Command) (s : State) : (placeItem c s).rawbuf = s.rawbuf := rfl
@[simp] theorem placeItem_rpt (c : Command) (s : State) : (placeItem c s).rpt = s.rpt := rfl
@[simp] theorem placeItem_outbuf (c : Command) (s : State) : (placeItem c s).outbuf = s.outbuf := rfl
@[simp] theorem placeItem_outSrc (c : Command) (s : State) : (placeItem c s).outSrc = s.outSrc := rfl
@[simp] theorem placeItem_delivPhase (c : Command) (s : State) : (placeItem c s).delivPhase = s.delivPhase := rfl
@[simp] theorem placeItem_tx (c : Command) (s : State) : (placeItem c s).tx = s.tx := rfl
@[simp] theorem placeItem_rx (c : Command) (s : State) : (placeItem c s).rx = s.rx := rfl
@[simp] theorem placeItem_sink (c : Command) (s : State) : (placeItem c s).sink = s.sink := rfl
@[simp] theorem placeItem_host (c : Command) (s : State) : (placeItem c s).host = s.host := rfl
@[simp] theorem placeItem_port (c : Command) (s : State) : (placeItem c s).port = c :: s.port := rfl
@[simp] theorem placeItem_schedule (c : Command) (s : State) : (placeItem c s).schedule = .hostOp :: s.schedule := rfl
@[simp] theorem placeItem_answers (c : Command) (s : State) : (placeItem c s).answers = s.answers := rfl
@[simp] theorem placeItem_draws (c : Command) (s : State) : (placeItem c s).draws = s.draws := rfl
@[simp] theorem placeItem_epoch (c : Command) (s : State) : (placeItem c s).epoch = s.epoch := rfl

/-! ### afterTurn -/

@[simp] theorem afterTurn_params (s : State) : (afterTurn s).params = s.params := by unfold afterTurn; split <;> rfl
@[simp] theorem afterTurn_dataWidth (s : State) : (afterTurn s).dataWidth = s.dataWidth := by unfold afterTurn; split <;> rfl
@[simp] theorem afterTurn_addrWidth (s : State) : (afterTurn s).addrWidth = s.addrWidth := by unfold afterTurn; split <;> rfl
@[simp] theorem afterTurn_rlcWidth (s : State) : (afterTurn s).rlcWidth = s.rlcWidth := by unfold afterTurn; split <;> rfl
@[simp] theorem afterTurn_limitSamples (s : State) : (afterTurn s).limitSamples = s.limitSamples := by unfold afterTurn; split <;> rfl
@[simp] theorem afterTurn_captureRatio (s : State) : (afterTurn s).captureRatio = s.captureRatio := by unfold afterTurn; split <;> rfl
@[simp] theorem afterTurn_state (s : State) : (afterTurn s).state = s.state := by unfold afterTurn; split <;> rfl
@[simp] theorem afterTurn_status (s : State) : (afterTurn s).status = s.status := by unfold afterTurn; split <;> rfl
@[simp] theorem afterTurn_transferredBytes (s : State) : (afterTurn s).transferredBytes = s.transferredBytes := by unfold afterTurn; split <;> rfl
@[simp] theorem afterTurn_totalSamples (s : State) : (afterTurn s).totalSamples = s.totalSamples := by unfold afterTurn; split <;> rfl
@[simp] theorem afterTurn_delayRaw (s : State) : (afterTurn s).delayRaw = s.delayRaw := by unfold afterTurn; split <;> rfl
@[simp] theorem afterTurn_delayValue (s : State) : (afterTurn s).delayValue = s.delayValue := by unfold afterTurn; split <;> rfl
@[simp] theorem afterTurn_rxEn (s : State) : (afterTurn s).rxEn = s.rxEn := by unfold afterTurn; split <;> rfl
@[simp] theorem afterTurn_rdata64 (s : State) : (afterTurn s).rdata64 = s.rdata64 := by unfold afterTurn; split <;> rfl
@[simp] theorem afterTurn_rawbuf (s : State) : (afterTurn s).rawbuf = s.rawbuf := by unfold afterTurn; split <;> rfl
@[simp] theorem afterTurn_rpt (s : State) : (afterTurn s).rpt = s.rpt := by unfold afterTurn; split <;> rfl
@[simp] theorem afterTurn_outbuf (s : State) : (afterTurn s).outbuf = s.outbuf := by unfold afterTurn; split <;> rfl
@[simp] theorem afterTurn_outSrc (s : State) : (afterTurn s).outSrc = s.outSrc := by unfold afterTurn; split <;> rfl
@[simp] theorem afterTurn_delivPhase (s : State) : (afterTurn s).delivPhase = s.delivPhase := by unfold afterTurn; split <;> rfl
@[simp] theorem afterTurn_tx (s : State) : (afterTurn s).tx = s.tx := by unfold afterTurn; split <;> rfl
@[simp] theorem afterTurn_rx (s : State) : (afterTurn s).rx = s.rx := by unfold afterTurn; split <;> rfl
@[simp] theorem afterTurn_sink (s : State) : (afterTurn s).sink = s.sink := by unfold afterTurn; split <;> rfl
@[simp] theorem afterTurn_host (s : State) : (afterTurn s).host = s.host := by unfold afterTurn; split <;> rfl
@[simp] theorem afterTurn_port (s : State) : (afterTurn s).port = s.port := by unfold afterTurn; split <;> rfl
@[simp] theorem afterTurn_schedule (s : State) : (afterTurn s).schedule = s.schedule.tail := by
  unfold afterTurn; split <;> simp_all
@[simp] theorem afterTurn_answers (s : State) : (afterTurn s).answers = s.answers := by unfold afterTurn; split <;> rfl
@[simp] theorem afterTurn_epoch (s : State) : (afterTurn s).epoch = s.epoch := by unfold afterTurn; split <;> rfl

/-! ### takeException: a fatal exception also performs the DONE entry actions -/

@[simp] theorem takeException_params (e : BlockException) (s : State) :
    (takeException e s).params = s.params := by
  unfold takeException; split <;> rfl
@[simp] theorem takeException_dataWidth (e : BlockException) (s : State) :
    (takeException e s).dataWidth = s.dataWidth := by
  unfold takeException; split <;> rfl
@[simp] theorem takeException_addrWidth (e : BlockException) (s : State) :
    (takeException e s).addrWidth = s.addrWidth := by
  unfold takeException; split <;> rfl
@[simp] theorem takeException_rlcWidth (e : BlockException) (s : State) :
    (takeException e s).rlcWidth = s.rlcWidth := by
  unfold takeException; split <;> rfl
@[simp] theorem takeException_limitSamples (e : BlockException) (s : State) :
    (takeException e s).limitSamples = s.limitSamples := by
  unfold takeException; split <;> rfl
@[simp] theorem takeException_captureRatio (e : BlockException) (s : State) :
    (takeException e s).captureRatio = s.captureRatio := by
  unfold takeException; split <;> rfl
@[simp] theorem takeException_state (e : BlockException) (s : State) :
    (takeException e s).state = if e.fatal then .done else s.state := by
  unfold takeException; split <;> rfl
@[simp] theorem takeException_status (e : BlockException) (s : State) :
    (takeException e s).status = s.status ||| e.bit := by
  unfold takeException; split <;> rfl
@[simp] theorem takeException_transferredBytes (e : BlockException) (s : State) :
    (takeException e s).transferredBytes = s.transferredBytes := by
  unfold takeException; split <;> rfl
@[simp] theorem takeException_totalSamples (e : BlockException) (s : State) :
    (takeException e s).totalSamples = s.totalSamples := by
  unfold takeException; split <;> rfl
@[simp] theorem takeException_delayRaw (e : BlockException) (s : State) :
    (takeException e s).delayRaw = s.delayRaw := by
  unfold takeException; split <;> rfl
@[simp] theorem takeException_delayValue (e : BlockException) (s : State) :
    (takeException e s).delayValue = s.delayValue := by
  unfold takeException; split <;> rfl
@[simp] theorem takeException_rxEn (e : BlockException) (s : State) :
    (takeException e s).rxEn = if e.fatal then false else s.rxEn := by
  unfold takeException; split <;> rfl
@[simp] theorem takeException_rdata64 (e : BlockException) (s : State) :
    (takeException e s).rdata64 = s.rdata64 := by
  unfold takeException; split <;> rfl
@[simp] theorem takeException_rawbuf (e : BlockException) (s : State) :
    (takeException e s).rawbuf = if e.fatal then [] else s.rawbuf := by
  unfold takeException; split <;> rfl
@[simp] theorem takeException_rpt (e : BlockException) (s : State) :
    (takeException e s).rpt = if e.fatal then [] else s.rpt := by
  unfold takeException; split <;> rfl
@[simp] theorem takeException_outbuf (e : BlockException) (s : State) :
    (takeException e s).outbuf = if e.fatal then [] else s.outbuf := by
  unfold takeException; split <;> rfl
@[simp] theorem takeException_outSrc (e : BlockException) (s : State) :
    (takeException e s).outSrc = s.outSrc := by
  unfold takeException; split <;> rfl
@[simp] theorem takeException_delivPhase (e : BlockException) (s : State) :
    (takeException e s).delivPhase = s.delivPhase := by
  unfold takeException; split <;> rfl
@[simp] theorem takeException_tx (e : BlockException) (s : State) :
    (takeException e s).tx = s.tx := by
  unfold takeException; split <;> rfl
@[simp] theorem takeException_rx (e : BlockException) (s : State) :
    (takeException e s).rx = s.rx := by
  unfold takeException; split <;> rfl
@[simp] theorem takeException_sink (e : BlockException) (s : State) :
    (takeException e s).sink = if e.fatal then s.sink ++ [.endOfAcquisition] else s.sink := by
  unfold takeException; split <;> rfl
@[simp] theorem takeException_host (e : BlockException) (s : State) :
    (takeException e s).host = s.host := by
  unfold takeException; split <;> rfl
@[simp] theorem takeException_port (e : BlockException) (s : State) :
    (takeException e s).port = s.port := by
  unfold takeException; split <;> rfl
@[simp] theorem takeException_schedule (e : BlockException) (s : State) :
    (takeException e s).schedule = s.schedule := by
  unfold takeException; split <;> rfl
@[simp] theorem takeException_answers (e : BlockException) (s : State) :
    (takeException e s).answers = s.answers := by
  unfold takeException; split <;> rfl
@[simp] theorem takeException_draws (e : BlockException) (s : State) :
    (takeException e s).draws = s.draws := by
  unfold takeException; split <;> rfl
@[simp] theorem takeException_epoch (e : BlockException) (s : State) :
    (takeException e s).epoch = if e.fatal then s.epoch + 1 else s.epoch := by
  unfold takeException; split <;> rfl

/-! ### txWrite: on ok the byte joins the TX stream, on fail TX_FAIL is set -/

@[simp] theorem txWrite_params (b : Byte) (s : State) :
    (txWrite b s).params = s.params := by
  unfold txWrite; split <;> rfl
@[simp] theorem txWrite_dataWidth (b : Byte) (s : State) :
    (txWrite b s).dataWidth = s.dataWidth := by
  unfold txWrite; split <;> rfl
@[simp] theorem txWrite_addrWidth (b : Byte) (s : State) :
    (txWrite b s).addrWidth = s.addrWidth := by
  unfold txWrite; split <;> rfl
@[simp] theorem txWrite_rlcWidth (b : Byte) (s : State) :
    (txWrite b s).rlcWidth = s.rlcWidth := by
  unfold txWrite; split <;> rfl
@[simp] theorem txWrite_limitSamples (b : Byte) (s : State) :
    (txWrite b s).limitSamples = s.limitSamples := by
  unfold txWrite; split <;> rfl
@[simp] theorem txWrite_captureRatio (b : Byte) (s : State) :
    (txWrite b s).captureRatio = s.captureRatio := by
  unfold txWrite; split <;> rfl
@[simp] theorem txWrite_state (b : Byte) (s : State) :
    (txWrite b s).state = s.state := by
  unfold txWrite; split <;> rfl
@[simp] theorem txWrite_status (b : Byte) (s : State) :
    (txWrite b s).status = if txAnswer s then s.status else s.status ||| 1#8 := by
  unfold txWrite; split <;> rfl
@[simp] theorem txWrite_transferredBytes (b : Byte) (s : State) :
    (txWrite b s).transferredBytes = s.transferredBytes := by
  unfold txWrite; split <;> rfl
@[simp] theorem txWrite_totalSamples (b : Byte) (s : State) :
    (txWrite b s).totalSamples = s.totalSamples := by
  unfold txWrite; split <;> rfl
@[simp] theorem txWrite_delayRaw (b : Byte) (s : State) :
    (txWrite b s).delayRaw = s.delayRaw := by
  unfold txWrite; split <;> rfl
@[simp] theorem txWrite_delayValue (b : Byte) (s : State) :
    (txWrite b s).delayValue = s.delayValue := by
  unfold txWrite; split <;> rfl
@[simp] theorem txWrite_rxEn (b : Byte) (s : State) :
    (txWrite b s).rxEn = s.rxEn := by
  unfold txWrite; split <;> rfl
@[simp] theorem txWrite_rdata64 (b : Byte) (s : State) :
    (txWrite b s).rdata64 = s.rdata64 := by
  unfold txWrite; split <;> rfl
@[simp] theorem txWrite_rawbuf (b : Byte) (s : State) :
    (txWrite b s).rawbuf = s.rawbuf := by
  unfold txWrite; split <;> rfl
@[simp] theorem txWrite_rpt (b : Byte) (s : State) :
    (txWrite b s).rpt = s.rpt := by
  unfold txWrite; split <;> rfl
@[simp] theorem txWrite_outbuf (b : Byte) (s : State) :
    (txWrite b s).outbuf = s.outbuf := by
  unfold txWrite; split <;> rfl
@[simp] theorem txWrite_outSrc (b : Byte) (s : State) :
    (txWrite b s).outSrc = s.outSrc := by
  unfold txWrite; split <;> rfl
@[simp] theorem txWrite_delivPhase (b : Byte) (s : State) :
    (txWrite b s).delivPhase = s.delivPhase := by
  unfold txWrite; split <;> rfl
@[simp] theorem txWrite_tx (b : Byte) (s : State) :
    (txWrite b s).tx = if txAnswer s then s.tx ++ [b] else s.tx := by
  unfold txWrite; split <;> rfl
@[simp] theorem txWrite_rx (b : Byte) (s : State) :
    (txWrite b s).rx = s.rx := by
  unfold txWrite; split <;> rfl
@[simp] theorem txWrite_sink (b : Byte) (s : State) :
    (txWrite b s).sink = s.sink := by
  unfold txWrite; split <;> rfl
@[simp] theorem txWrite_host (b : Byte) (s : State) :
    (txWrite b s).host = s.host := by
  unfold txWrite; split <;> rfl
@[simp] theorem txWrite_port (b : Byte) (s : State) :
    (txWrite b s).port = s.port := by
  unfold txWrite; split <;> rfl
@[simp] theorem txWrite_schedule (b : Byte) (s : State) :
    (txWrite b s).schedule = s.schedule := by
  unfold txWrite; split <;> rfl
@[simp] theorem txWrite_answers (b : Byte) (s : State) :
    (txWrite b s).answers = s.answers.tail := by
  unfold txWrite; split <;> rfl
@[simp] theorem txWrite_draws (b : Byte) (s : State) :
    (txWrite b s).draws = s.draws + 1 := by
  unfold txWrite; split <;> rfl
@[simp] theorem txWrite_epoch (b : Byte) (s : State) :
    (txWrite b s).epoch = s.epoch := by
  unfold txWrite; split <;> rfl

end Sys2Proof.Machine
end

