-- ==== Sys2Proof/Laws/Ops.lean ====
section
/-! SUPPORT. One lemma per shared operation, saying once everything it can do; later proofs cite these. -/

namespace Sys2Proof.Machine

/-! ### Bits -/

/-- `twoPowMod64` is the value 10_state.md R25 and R38 name. -/
theorem twoPowMod64_eq (v : Nat) : twoPowMod64 v = BitVec.ofNat 64 (2 ^ v) := by
  unfold twoPowMod64
  split
  · rename_i h
    apply BitVec.eq_of_toNat_eq
    rw [BitVec.toNat_shiftLeft, BitVec.toNat_ofNat, BitVec.toNat_ofNat, Nat.one_mod_eq_one.mpr (by decide),
      Nat.shiftLeft_eq, one_mul]
  · rename_i h
    apply BitVec.eq_of_toNat_eq
    rw [BitVec.toNat_ofNat, BitVec.toNat_ofNat, Nat.zero_mod]
    exact (Nat.mod_eq_zero_of_dvd (Nat.pow_dvd_pow 2 (by omega))).symm

/-! ### Faults -/

/-- A guarded access that answers a next state lies in its space. -/
theorem guardSpace_next {sp : Space} {a n : Nat} {s s' : State} {k : Result}
    (h : guardSpace sp a n s k = .next s') : inSpace sp a n s = true ∧ k = .next s' := by
  unfold guardSpace at h
  split at h
  · exact ⟨‹_›, h⟩
  · cases h

/-- A guarded access inside its space goes on. -/
theorem guardSpace_of_le {sp : Space} {a n : Nat} {s : State} (k : Result)
    (h : n = 0 ∨ a + n ≤ s.capacity sp) : guardSpace sp a n s k = k := by
  unfold guardSpace inSpace
  rw [if_pos]
  rcases h with h | h <;> simp [h]

/-! ### The framer -/

/-- A `tx_write` does one of two things. -/
theorem txWrite_cases (b : Byte) (s : State) :
    (txAnswer s = true ∧ txWrite b s = { useAnswer s with tx := s.tx ++ [b] }) ∨
    (txAnswer s = false ∧ txWrite b s = { useAnswer s with status := s.status ||| 1#8 }) := by
  unfold txWrite
  cases h : txAnswer s
  · exact .inr ⟨rfl, rfl⟩
  · exact .inl ⟨rfl, rfl⟩

/-- A payload byte takes one write, or two if it is a sentinel. -/
theorem sendPayload_eq (b : Byte) (s : State) :
    sendPayload b s = if b = 0xEE#8 ∨ b = 0x55#8 then txWrite b (txWrite 0x55#8 s) else txWrite b s := by
  unfold sendPayload isSentinel
  simp only [resetCode, escapeCode, Bool.or_eq_true, beq_iff_eq]

/-! ### The instructions -/

/-- Everything a host operation or a wire opcode can do. -/
theorem exec_cases {i : Instr} {s t : State} (h : exec i s = .next t) :
    (i = .nop ∧ t = s) ∨ (∃ c, wireOf i = [c] ∧ t = sendRaw c s) ∨
    (∃ b, i = .sendEscaped b ∧ t = sendPayload b s) ∨ (i = .arm ∧ t = armEffect s) ∨
    (i = .abort ∧ t = abortEffect s) ∨ (∃ a v, i = .writeReg a v ∧ t = writeRegister a v s) ∨
    (∃ a, i = .readReg a ∧ t = readRegister a s) := by
  have out : ∀ {u : State}, exec i s = .next u → t = u := fun hu => by
    rw [hu] at h; exact (Host.Outcome.next.inj h).symm
  cases i with
  | nop => exact .inl ⟨rfl, out rfl⟩
  | sendEscaped b => exact .inr (.inr (.inl ⟨b, rfl, out rfl⟩))
  | arm => exact .inr (.inr (.inr (.inl ⟨rfl, out rfl⟩)))
  | abort => exact .inr (.inr (.inr (.inr (.inl ⟨rfl, out rfl⟩))))
  | writeReg a v => exact .inr (.inr (.inr (.inr (.inr (.inl ⟨a, v, rfl, out rfl⟩)))))
  | readReg a => exact .inr (.inr (.inr (.inr (.inr (.inr ⟨a, rfl, out rfl⟩)))))
  | _ => exact .inr (.inl ⟨_, rfl, out rfl⟩)

/-- What ABORT does, by whether the acquisition can be aborted (43_rlc_decoder.md R215). -/
theorem abortEffect_cases (s : State) :
    ((s.state = .accumulating ∨ s.state = .decoding) ∧ abortEffect s = takeException .aborted s) ∨
    (¬ (s.state = .accumulating ∨ s.state = .decoding) ∧ abortEffect s = takeException .illegalCmd s) := by
  unfold abortEffect
  cases h : s.state <;> simp

/-- What ARM does: one of its four outcomes (43_rlc_decoder.md R214). -/
theorem armEffect_cases (s : State) :
    (s.active = true ∧ armEffect s = takeException .illegalCmd s) ∨
    (s.active = false ∧ s.cfgValid = false ∧ armEffect s = takeException .cfgInvalid s) ∨
    (s.active = false ∧ s.cfgValid = true ∧ s.params.rawCapacityBytes < s.budgetBytes ∧
      armEffect s = takeException .allocFail (armLatch s)) ∨
    (s.active = false ∧ s.cfgValid = true ∧ s.budgetBytes ≤ s.params.rawCapacityBytes ∧
      armEffect s = { armLatch s with outSrc := .rawbuf, state := .accumulating, rxEn := true }) := by
  unfold armEffect
  cases ha : s.active
  · cases hc : s.cfgValid
    · simp
    · by_cases hb : s.params.rawCapacityBytes < s.budgetBytes
      · simp [hb]
      · simp [hb]; omega
  · simp

/-- ARM's configuration checks, as propositions (43_rlc_decoder.md R214). -/
theorem cfgValid_iff (s : State) :
    s.cfgValid = true ↔
      1 ≤ s.dataWidth.toNat ∧ s.dataWidth.toNat ≤ s.params.dataWidthMax ∧
      s.addrWidth.toNat ≤ s.params.addrWidthMax ∧ s.rlcWidth.toNat ≤ s.params.rlcWidthMax ∧
      1 ≤ s.limitSamples.toNat ∧ s.limitSamples.toNat ≤ 2 ^ s.addrWidth.toNat ∧
      s.captureRatio.toNat ≤ 100 := by
  unfold State.cfgValid State.dw State.aw State.cw State.limit State.limitSamplesMax State.aw
  simp only [Bool.and_eq_true, decide_eq_true_eq, and_assoc]

/-- What WRITE_REG does (43_rlc_decoder.md R212): a locked or unlocked configuration write, a STATUS clear, or BAD_REG. -/
theorem writeRegister_cases (a : Byte) (v : Word64) (s : State) :
    (regAt a = some .status ∧ writeRegister a v s = clearStatus v s) ∨
    (∃ r s', regAt a = some r ∧ writeConfig r v s = some s' ∧ s.active = true ∧
      writeRegister a v s = takeException .cfgLocked s) ∨
    (∃ r s', regAt a = some r ∧ writeConfig r v s = some s' ∧ s.active = false ∧ writeRegister a v s = s') ∨
    (writeRegister a v s = takeException .badReg s) := by
  unfold writeRegister
  cases hr : regAt a with
  | none => simp
  | some r =>
    by_cases hs : r = .status
    · subst r; simp
    · cases hw : writeConfig r v s with
      | none => cases r <;> simp_all
      | some s' => cases ha : s.active <;> cases r <;> simp_all

/-- The states a configuration write can give (43_rlc_decoder.md R212; 10_state.md R24–R28). -/
theorem writeConfig_cases {r : Reg} {v : Word64} {s s' : State} (h : writeConfig r v s = some s') :
    s' = { s with dataWidth := v.setWidth 32 } ∨
    s' = { s with addrWidth := v.setWidth 32, limitSamples := twoPowMod64 (v.setWidth 32).toNat } ∨
    s' = { s with rlcWidth := v.setWidth 8 } ∨ s' = { s with limitSamples := v } ∨
    s' = { s with captureRatio := v.setWidth 8 } := by
  cases r <;> simp only [writeConfig, Option.some.injEq, reduceCtorEq] at h <;> subst h <;> simp

/-- What READ_REG does (43_rlc_decoder.md R213). -/
theorem readRegister_cases (a : Byte) (s : State) :
    (∃ r, regAt a = some r ∧ readRegister a s = { s with rdata64 := readReg r s }) ∨
    (regAt a = none ∧ readRegister a s = takeException .badReg { s with rdata64 := 0#64 }) := by
  unfold readRegister
  cases regAt a <;> simp

/-! ### The decoder's steps -/

/-- What RX_READY can do (43_rlc_decoder.md R216). -/
theorem rxReady_cases {n : Nat} {s s' : State} (h : rxReady n s = .next s') :
    (¬ (s.state = .accumulating ∧ s.rxEn = true) ∧ s' = s) ∨
    ((s.state = .accumulating ∧ s.rxEn = true) ∧
      inSpace .rawbuf s.transferredBytes
        (min (s.rx.take (chunkSize n s)).length (s.budgetBytes - s.transferredBytes)) s = true ∧
      s' = takeChunk (s.rx.take (chunkSize n s)) { s with rx := s.rx.drop (chunkSize n s) }) := by
  unfold rxReady at h
  split at h
  · rename_i he
    obtain ⟨h1, h2⟩ := guardSpace_next h
    exact .inr ⟨he, h1, (Host.Outcome.next.inj h2).symm⟩
  · rename_i he
    exact .inl ⟨he, (Host.Outcome.next.inj h).symm⟩

/-- What DECODE can do (43_rlc_decoder.md R217–R219). -/
theorem decodeStep_cases {s s' : State} (h : decodeStep s = .next s') :
    (s.cw = 0 ∧ s' = decodePlain s) ∨
    (0 < s.cw ∧ s' = takeException .allocFail s ∧
      (s.params.rptCapacityEntries < s.limit ∨
        s.params.outCapacityBytes < s.repeatCounts.sum * s.dataWidthBytes)) ∨
    (0 < s.cw ∧ s.limit ≤ s.params.rptCapacityEntries ∧
      s.repeatCounts.sum * s.dataWidthBytes ≤ s.params.outCapacityBytes ∧ s' = decodeExpanded s) := by
  unfold decodeStep at h
  split at h
  · exact .inl ⟨‹_›, (Host.Outcome.next.inj h).symm⟩
  · have hc : 0 < s.cw := by omega
    unfold decodeRlc at h
    split at h
    · exact .inr (.inl ⟨hc, (Host.Outcome.next.inj h).symm, .inl ‹_›⟩)
    · obtain ⟨-, h⟩ := guardSpace_next h
      split at h
      · exact .inr (.inl ⟨hc, (Host.Outcome.next.inj h).symm, .inr ‹_›⟩)
      · exact .inr (.inr ⟨hc, by omega, by omega, (Host.Outcome.next.inj h).symm⟩)

/-- What a delivery step can do (43_rlc_decoder.md R221–R223). -/
theorem deliverStep_cases {s s' : State} (h : deliverStep s = .next s') :
    (s.delivPhase = .pre ∧ s' = { sinkEvent (logicEvent 0 s.delayValue s) s with delivPhase := .trig }) ∨
    (s.delivPhase = .trig ∧ s' = { sinkEvent .trigger s with delivPhase := .post }) ∨
    (s.delivPhase = .post ∧
      s' = enterDone (sinkEvent (logicEvent s.delayValue (s.totalSamples - s.delayValue) s) s)) := by
  unfold deliverStep at h
  cases hp : s.delivPhase <;> rw [hp] at h
  · exact .inl ⟨rfl, (Host.Outcome.next.inj (guardSpace_next h).2).symm⟩
  · exact .inr (.inl ⟨rfl, (Host.Outcome.next.inj h).symm⟩)
  · exact .inr (.inr ⟨rfl, (Host.Outcome.next.inj (guardSpace_next h).2).symm⟩)

/-- What the decoder's turn can do. -/
theorem internalStep_cases {s s' : State} (h : internalStep s = .next s') :
    (s.state ≠ .decoding ∧ s.state ≠ .delivering ∧ s' = s) ∨
    (s.state = .decoding ∧ decodeStep s = .next s') ∨ (s.state = .delivering ∧ deliverStep s = .next s') := by
  unfold internalStep at h
  cases hs : s.state <;> rw [hs] at h
  · exact .inl ⟨by simp, by simp, (Host.Outcome.next.inj h).symm⟩
  · exact .inl ⟨by simp, by simp, (Host.Outcome.next.inj h).symm⟩
  · exact .inr (.inl ⟨rfl, h⟩)
  · exact .inr (.inr ⟨rfl, h⟩)
  · exact .inl ⟨by simp, by simp, (Host.Outcome.next.inj h).symm⟩

/-! ### The HOST's turns touch the HOST's records, its port, the RX stream and the draw counter only -/

theorem hostNegotiate_eq (s : State) :
    ∃ h p, hostNegotiate s = { s with host := h, port := p } := by
  unfold hostNegotiate
  split
  · exact ⟨_, _, rfl⟩
  all_goals exact ⟨s.host, s.port, rfl⟩

theorem hostRead_eq (a : ReadAnswer) (s : State) :
    ∃ h p r, hostRead a s = { s with host := h, port := p, rx := r } := by
  unfold hostRead
  split
  · split
    · exact ⟨s.host, s.port, s.rx, rfl⟩
    · exact ⟨_, _, _, rfl⟩
    · exact ⟨_, _, _, rfl⟩
  · exact ⟨s.host, s.port, s.rx, rfl⟩

theorem hostAcquire_eq (r : AcquisitionRequest) (s : State) :
    ∃ h p d, hostAcquire r s = { s with host := h, port := p, draws := d } := by
  unfold hostAcquire
  split
  · exact ⟨_, _, _, rfl⟩
  all_goals exact ⟨s.host, s.port, s.draws, rfl⟩

theorem hostFollow_eq (s : State) : ∃ h p, hostFollow s = { s with host := h, port := p } := by
  unfold hostFollow
  split
  · split <;> exact ⟨_, _, rfl⟩
  · split <;> exact ⟨_, _, rfl⟩
  · exact ⟨_, _, rfl⟩
  · exact ⟨s.host, s.port, rfl⟩

/-- What HOST does on the way to the end of an acquisition and through its results (70_reset_and_hazards.md R292). -/
theorem hostFollow_cases (s : State) :
    hostFollow s = s ∨
    (s.port = [] ∧
      ((∃ m, s.host.phase = .acquiring m ∧ endSeen m s = true ∧
          hostFollow s = hostDecides (askResult .totalSamples s.host) s) ∨
        (∃ m, s.host.phase = .acquiring m ∧ endSeen m s = false ∧
          hostFollow s = hostDecides ({ s.host with phase := .polling m }, [rreg .state]) s) ∨
        (∃ m, s.host.phase = .polling m ∧ s.rdata64 = 4#64 ∧
          hostFollow s = hostDecides (askResult .totalSamples s.host) s) ∨
        (∃ m, s.host.phase = .polling m ∧ s.rdata64 ≠ 4#64 ∧
          hostFollow s = hostDecides ({ s.host with phase := .acquiring m }, []) s) ∨
        ∃ r, s.host.phase = .collecting r ∧ hostFollow s = hostDecides (takeResult r s.rdata64 s.host) s)) := by
  have e : (stateCode .done).setWidth 64 = 4#64 := rfl
  unfold hostFollow
  rw [e]
  cases hport : s.port with
  | cons c cs => left; split <;> first | rfl | simp_all
  | nil =>
    cases hph : s.host.phase with
    | acquiring m => right; cases h : endSeen m s <;> simp [h]
    | polling m => right; by_cases h : s.rdata64 = 4#64 <;> simp [h]
    | collecting r => right; simp
    | _ => simp

/-- An item that configures or ARMs the block, by what it decodes to. -/
theorem configuresOrArms_eq_false_iff (c : Command) :
    configuresOrArms c = false ↔
      decode c ≠ .ok .arm ∧ ∀ a v, decode c = .ok (.writeReg a v) → 0x04 < a.toNat := by
  unfold configuresOrArms
  cases decode c with
  | error e => simp
  | ok i => cases i <;> simp

/-- What the host hands over of its own choosing: everything, or after a failed identity check everything but what would
configure or ARM the block. -/
theorem hostIssues_cases (items : List Command) (s : State) :
    ((∀ e, s.host.phase ≠ .failed e) ∧ hostIssues items s = { s with port := s.port ++ items }) ∨
    ((∃ e, s.host.phase = .failed e) ∧
      hostIssues items s = { s with port := s.port ++ items.filter (fun c => !configuresOrArms c) }) := by
  unfold hostIssues
  cases s.host.phase <;> simp [allowedItems, hostDecides]

/-- What beginning an acquisition does: a failed translation sends nothing, and otherwise the writes and the start sequence
follow and the HOST waits for the end (42_host_functions.md R199; 41_command_frames.md R164). -/
theorem beginAcquisition_cases (r : AcquisitionRequest) (draw mark : Nat) (h : HostState) :
    (translate h.caps.dataWidth r.specs = none ∧
      beginAcquisition r draw mark h =
        ({ h with vectors := vectorsAfterFailure draw h.caps.dataWidthBytes, translationFailed := true }, [])) ∨
    (∃ v, translate h.caps.dataWidth r.specs = some v ∧
      (beginAcquisition r draw mark h).1.vectors = v ∧ (beginAcquisition r draw mark h).1.phase = .acquiring mark ∧
      (beginAcquisition r draw mark h).1.caps = h.caps) := by
  unfold beginAcquisition
  cases translate h.caps.dataWidth r.specs with
  | none => exact .inl ⟨rfl, rfl⟩
  | some v => exact .inr ⟨v, rfl, rfl, rfl, rfl⟩

end Sys2Proof.Machine
end

