-- ==== Sys2Proof/Laws/PerInstr.lean ====
section
/-! SUPPORT. One lemma per instruction: its encoding is a legal item (30_encoding.md R93, R95). -/

namespace Sys2Proof

/-- The HOP field of a command word built from its fields (30_encoding.md R90). -/
theorem hopOf_hcwOf (hop arg : Byte) : hopOf (hcwOf hop arg) = hop := by
  apply BitVec.eq_of_getLsbD_eq
  intro k hk
  rw [hopOf, hcwOf, BitVec.getLsbD_extractLsb', BitVec.getLsbD_append]
  simp [hk]

/-- The ARG8 field of a command word built from its fields (30_encoding.md R90). -/
theorem arg8Of_hcwOf (hop arg : Byte) : arg8Of (hcwOf hop arg) = arg := by
  apply BitVec.eq_of_getLsbD_eq
  intro k hk
  rw [arg8Of, hcwOf, BitVec.getLsbD_extractLsb', BitVec.getLsbD_append]
  simp [hk]

/-- An operation with a free ARG8 has a legal word for every ARG8. -/
theorem hcwOf_wellFormed {hop : Byte} (arg : Byte) (d : Word64) (h : hop ∈ freeArgHops) :
    (Command.hcw (hcwOf hop arg) d).wellFormed = true := by
  simp only [Command.wellFormed, hopOf_hcwOf, List.contains_eq_mem, h, decide_true, Bool.true_or]

end Sys2Proof

namespace Sys2Proof.Laws.EncodeLegal

/-- The item that encodes the instruction is legal. -/
def Statement (i : Instr) : Prop := (encode i).wellFormed = true

theorem nop : Statement .nop := rfl
theorem sendOpcode (c : Byte) : Statement (.sendOpcode c) := hcwOf_wellFormed c 0#64 (by decide)
theorem sendEscaped (b : Byte) : Statement (.sendEscaped b) := hcwOf_wellFormed b 0#64 (by decide)
theorem arm : Statement .arm := rfl
theorem abort : Statement .abort := rfl
theorem writeReg (a : Byte) (v : Word64) : Statement (.writeReg a v) := hcwOf_wellFormed a v (by decide)
theorem readReg (a : Byte) : Statement (.readReg a) := hcwOf_wellFormed a 0#64 (by decide)
theorem reset : Statement .reset := rfl
theorem escape : Statement .escape := rfl
theorem getBusWidths : Statement .getBusWidths := rfl
theorem getId : Statement .getId := rfl
theorem getFeatures : Statement .getFeatures := rfl
theorem getRlcWidth : Statement .getRlcWidth := rfl
theorem getChannelNames : Statement .getChannelNames := rfl
theorem getSampleRate : Statement .getSampleRate := rfl
theorem start : Statement .start := rfl
theorem configureLA : Statement .configureLA := rfl
theorem laDelaySub : Statement .laDelaySub := rfl
theorem configureTrigger : Statement .configureTrigger := rfl
theorem triggerMasksGroup : Statement .triggerMasksGroup := rfl
theorem triggerMasksLastGroup : Statement .triggerMasksLastGroup := rfl
theorem triggerMaskSel : Statement .triggerMaskSel := rfl
theorem triggerValueSel : Statement .triggerValueSel := rfl
theorem triggerMaskLastSel : Statement .triggerMaskLastSel := rfl
theorem triggerValueLastSel : Statement .triggerValueLastSel := rfl
theorem edgeSelect : Statement .edgeSelect := rfl
theorem edgeSet : Statement .edgeSet := rfl

end Sys2Proof.Laws.EncodeLegal
end

