-- ==== Sys2Proof/Laws/Step.lean ====
section
/-! SUPPORT. Everything one turn can do, said once. -/

namespace Sys2Proof.Machine

/-- Everything an item can do: the instruction it decodes to runs, an illegal word raises ILLEGAL_CMD, or an unlisted wire
byte goes out raw. -/
theorem runItem_cases {c : Command} {s s' : State} (h : runItem c s = .next s') :
    (∃ i, decode c = .ok i ∧ exec i s = .next s') ∨
    (∃ e, decode c = .error e ∧ s' = takeException .illegalCmd s) ∨
    (∃ b, decode c = .error (.unlistedOpcode b) ∧ s' = sendRaw b s) := by
  unfold runItem at h
  split at h
  · exact .inl ⟨_, ‹_›, h⟩
  · rename_i e he
    cases e with
    | unlistedOpcode b => exact .inr (.inr ⟨b, he, (Host.Outcome.next.inj h).symm⟩)
    | reservedHop b => exact .inr (.inl ⟨_, he, (Host.Outcome.next.inj h).symm⟩)
    | nonzeroArg b c => exact .inr (.inl ⟨_, he, (Host.Outcome.next.inj h).symm⟩)

/-- Everything a turn can do: one case per kind of turn. -/
theorem takeTurn_cases {t : Turn} {s s' : State} (h : takeTurn t s = .next s') :
    (t = .hostOp ∧ s.port = [] ∧ s' = s) ∨
    (∃ c cs, t = .hostOp ∧ s.port = c :: cs ∧ runItem c { s with port := cs } = .next s') ∨
    (t = .hostNegotiate ∧ s' = hostNegotiate s) ∨
    (∃ a, t = .hostRead a ∧ s' = hostRead a s) ∨
    (∃ r, t = .hostAcquire r ∧ s' = hostAcquire r s) ∨
    (t = .hostFollow ∧ s' = hostFollow s) ∨
    (∃ items, t = .hostIssues items ∧ s' = hostIssues items s) ∨
    (∃ bs, t = .deviceSends bs ∧ s' = deviceSends bs s) ∨
    (∃ n, t = .rxReady n ∧ rxReady n s = .next s') ∨
    (t = .decoderStep ∧ internalStep s = .next s') ∨
    (t = .resetInput ∧ s' = resetBlock s) := by
  have out : ∀ {u : State}, takeTurn t s = .next u → s' = u := fun hu => by
    rw [hu] at h; exact (Host.Outcome.next.inj h).symm
  cases t with
  | hostOp =>
    cases hp : s.port with
    | nil => exact .inl ⟨rfl, rfl, out (by simp [takeTurn, hp, agentTurn])⟩
    | cons c cs => exact .inr (.inl ⟨c, cs, rfl, rfl, by simpa [takeTurn, hp] using h⟩)
  | hostNegotiate => exact .inr (.inr (.inl ⟨rfl, out rfl⟩))
  | hostRead a => exact .inr (.inr (.inr (.inl ⟨a, rfl, out rfl⟩)))
  | hostAcquire r => exact .inr (.inr (.inr (.inr (.inl ⟨r, rfl, out rfl⟩))))
  | hostFollow => exact .inr (.inr (.inr (.inr (.inr (.inl ⟨rfl, out rfl⟩)))))
  | hostIssues items => exact .inr (.inr (.inr (.inr (.inr (.inr (.inl ⟨items, rfl, out rfl⟩))))))
  | deviceSends bs => exact .inr (.inr (.inr (.inr (.inr (.inr (.inr (.inl ⟨bs, rfl, out rfl⟩)))))))
  | rxReady n => exact .inr (.inr (.inr (.inr (.inr (.inr (.inr (.inr (.inl ⟨n, rfl, h⟩))))))))
  | decoderStep => exact .inr (.inr (.inr (.inr (.inr (.inr (.inr (.inr (.inr (.inl ⟨rfl, h⟩)))))))))
  | resetInput => exact .inr (.inr (.inr (.inr (.inr (.inr (.inr (.inr (.inr (.inr ⟨rfl, out rfl⟩)))))))))

end Sys2Proof.Machine
end

