-- ==== Sys2Proof/Tests/Slice0.lean ====
section
/-! SUPPORT. Tests of the model. Expected results are those of 95_test_vectors.md (its row is named) or of the rule
named; the witnesses at the end meet the hypotheses of the statements in Certificates/Slice0/Obligations.lean. -/

namespace Sys2Proof.Tests

open Sys2Proof Sys2Proof.Machine

/-! ### Helpers -/

/-- The next state of an outcome. -/
def next? : Result → Option State
  | .next s => some s
  | .fault _ => none
  | .refused _ => none

/-- One view of the next state. -/
def seen {α : Type} (view : State → α) (r : Result) : Option α := (next? r).map view

theorem next_of_seen {α : Type} {view : State → α} {r : Result} {v : α} (h : seen view r = some v) :
    ∃ t, r = .next t ∧ view t = v := by
  cases r with
  | next s => exact ⟨s, rfl, by simpa [seen, next?] using h⟩
  | fault f => simp [seen, next?] at h
  | refused r => simp [seen, next?] at h

/-- The registers of an acquisition, as a test reads them. -/
structure Results where
  state : DecoderState
  transferredBytes : Nat
  totalSamples : Nat
  delayValue : Nat
  status : BitVec 8
  deriving DecidableEq, Repr

def results (s : State) : Results := ⟨s.state, s.transferredBytes, s.totalSamples, s.delayValue, s.status⟩

/-- Parameters large enough for the vectors (95_test_vectors.md, conventions). -/
def roomy : Params where
  chunkMax := 64
  rawCapacityBytes := 4096
  rptCapacityEntries := 64
  outCapacityBytes := 4096
  dataWidthMax := 512
  addrWidthMax := 20
  rlcWidthMax := 32
  negTimeout := 1

/-- Reset, with those parameters and every write answered `ok`. -/
def start : State := { State.reset with params := roomy, answers := [true, true, true, true] }

/-- The base configuration of 95_test_vectors.md 2.5. -/
def base : State := { start with dataWidth := 8, addrWidth := 10, limitSamples := 1000, captureRatio := 50 }

/-- Vector K2's acquisition, ACCUMULATING with nothing received: C = 8, DW = 8, L = 2, ratio 100. -/
def armed : State :=
  { start with
    dataWidth := 8, addrWidth := 10, rlcWidth := 8, limitSamples := 2, captureRatio := 100
    state := .accumulating, rxEn := true, delayRaw := 1 }

/-- The same, with its four bytes received. -/
def full : State :=
  { armed with state := .decoding, transferredBytes := 4, rawbuf := [(0, 0x00), (1, 0xAB), (2, 0x02), (3, 0xCD)] }

/-- The same after DECODE (K2, K12). -/
def ready : State :=
  { full with
    state := .delivering, rpt := [(0, 1), (1, 3)], outbuf := [(0, 0xAB), (1, 0xCD), (2, 0xCD), (3, 0xCD)]
    totalSamples := 4, delayValue := 1, outSrc := .outbuf, delivPhase := .pre }

/-- Vector K1's acquisition with the coder off, its four bytes received, ratio 50 (K11). -/
def fullPlain : State :=
  { full with
    rlcWidth := 0, limitSamples := 4, captureRatio := 50, rawbuf := [(0, 0x11), (1, 0x22), (2, 0x33), (3, 0x44)] }

/-- An acquisition that is over. -/
def finished : State := { ready with state := .done, rxEn := false, rawbuf := [], rpt := [], outbuf := [], epoch := 1 }

/-! ### Well-formedness and decoding -/

/-- 30_encoding.md R93: HOP 0x30 is reserved. -/
theorem test_reserved_hop_refused :
    (Command.hcw 0x3000#16 0#64).wellFormed = false ∧ decode (.hcw 0x3000#16 0#64) = .error (.reservedHop 0x30#8) := by
  decide

/-- 30_encoding.md R93: NOP, ARM and ABORT with ARG8 not 0x00. -/
theorem test_nonzero_arg_refused :
    (Command.hcw 0x0001#16 0#64).wellFormed = false ∧ decode (.hcw 0x0001#16 0#64) = .error (.nonzeroArg 0x00#8 0x01#8) ∧
    (Command.hcw 0x1001#16 0#64).wellFormed = false ∧ decode (.hcw 0x1001#16 0#64) = .error (.nonzeroArg 0x10#8 0x01#8) ∧
    (Command.hcw 0x1180#16 0#64).wellFormed = false ∧
    decode (.hcw 0x1180#16 0#64) = .error (.nonzeroArg 0x11#8 0x80#8) := by
  decide

/-- 30_encoding.md R95: 0xFC is not in the list of wire opcodes. -/
theorem test_unlisted_wire_byte_refused :
    (Command.wire 0xFC#8).wellFormed = false ∧ decode (.wire 0xFC#8) = .error (.unlistedOpcode 0xFC#8) := by
  decide

/-- 30_encoding.md R91: HOP in bits 15:8, ARG8 in bits 7:0, one word for each host operation. -/
theorem test_host_operations_decode :
    decode (.hcw 0x0000#16 5#64) = .ok .nop ∧ decode (.hcw 0x01FE#16 0#64) = .ok (.sendOpcode 0xFE#8) ∧
    decode (.hcw 0x0255#16 0#64) = .ok (.sendEscaped 0x55#8) ∧ decode (.hcw 0x1000#16 0#64) = .ok .arm ∧
    decode (.hcw 0x1100#16 0#64) = .ok .abort ∧
    decode (.hcw 0x2003#16 1000#64) = .ok (.writeReg 0x03#8 1000#64) ∧
    decode (.hcw 0x211A#16 0#64) = .ok (.readReg 0x1A#8) := by
  decide

/-- 30_encoding.md R95: one byte for each wire opcode. -/
theorem test_wire_opcodes_decode :
    decode (.wire 0xEE#8) = .ok .reset ∧ decode (.wire 0x55#8) = .ok .escape ∧
    decode (.wire 0xAA#8) = .ok .getBusWidths ∧ decode (.wire 0xBB#8) = .ok .getId ∧
    decode (.wire 0x10#8) = .ok .getFeatures ∧ decode (.wire 0x60#8) = .ok .getRlcWidth ∧
    decode (.wire 0x70#8) = .ok .getChannelNames ∧ decode (.wire 0x80#8) = .ok .getSampleRate ∧
    decode (.wire 0xFE#8) = .ok .start ∧ decode (.wire 0x0F#8) = .ok .configureLA ∧
    decode (.wire 0x1F#8) = .ok .laDelaySub ∧ decode (.wire 0xF0#8) = .ok .configureTrigger ∧
    decode (.wire 0xF1#8) = .ok .triggerMasksGroup ∧ decode (.wire 0xF9#8) = .ok .triggerMasksLastGroup ∧
    decode (.wire 0xF3#8) = .ok .triggerMaskSel ∧ decode (.wire 0xF7#8) = .ok .triggerValueSel ∧
    decode (.wire 0xFB#8) = .ok .triggerMaskLastSel ∧ decode (.wire 0xFF#8) = .ok .triggerValueLastSel ∧
    decode (.wire 0xF5#8) = .ok .edgeSelect ∧ decode (.wire 0xF6#8) = .ok .edgeSet := by
  decide

/-- The bits of opcode_table.json's rows: a wire byte, a command word, and a command word with its DATA64 above it. -/
theorem test_table_words_decode :
    decodeTableWord 8 0xEE = some .reset ∧ decodeTableWord 16 0x01BB = some (.sendOpcode 0xBB#8) ∧
    decodeTableWord 16 0x2001 = some (.writeReg 0x01#8 0#64) ∧
    decodeTableWord 80 0xA2001 = some (.writeReg 0x01#8 10#64) ∧ decodeTableWord 16 0x3000 = none := by
  decide

/-! ### Instructions -/

/-- G19. -/
theorem test_nop : seen (fun t => decide (t = base)) (exec .nop base) = some true := by decide

/-- E1, E3: opcode bytes go out raw, the escape code too. -/
theorem test_send_opcode_raw :
    seen State.tx (exec (.sendOpcode 0xBB#8) start) = some [0xBB#8] ∧
    seen State.tx (exec (.sendOpcode 0x55#8) start) = some [0x55#8] := by
  decide

/-- E4: a failed write adds no byte and sets TX_FAIL. -/
theorem test_send_opcode_fails :
    seen (fun t => (t.tx, t.status)) (exec (.sendOpcode 0xFE#8) { start with answers := [false] }) =
      some ([], 0x01#8) := by
  decide

/-- E7, E8: a sentinel takes its prefix first; its neighbours take none. -/
theorem test_send_escaped :
    seen State.tx (exec (.sendEscaped 0xEE#8) start) = some [0x55#8, 0xEE#8] ∧
    seen State.tx (exec (.sendEscaped 0xED#8) start) = some [0xED#8] := by
  decide

/-- E11, E12: each of the two writes fails on its own. -/
theorem test_send_escaped_fails :
    seen (fun t => (t.tx, t.status)) (exec (.sendEscaped 0xEE#8) { start with answers := [false, true] }) =
      some ([0xEE#8], 0x01#8) ∧
    seen (fun t => (t.tx, t.status)) (exec (.sendEscaped 0xEE#8) { start with answers := [true, false] }) =
      some ([0x55#8], 0x01#8) := by
  decide

/-- G4, G5. -/
theorem test_write_addr_width :
    seen (fun t => (t.addrWidth, t.limitSamples, t.limitSamplesMax, t.addrWidthBytes))
      (exec (.writeReg 0x01#8 0x10000000A#64) start) = some (10#32, 1024#64, 1024, 2) := by
  decide

/-- G14, G17: STATUS is write-1-to-clear, and not locked. -/
theorem test_write_status :
    seen State.status (exec (.writeReg 0x11#8 0x01#64) { armed with status := 0x61 }) = some 0x60#8 := by
  decide

/-- G8: `RAW_DATA_WIDTH_BYTES = ceil_div(12 + 5, 8)`. -/
theorem test_read_raw_width :
    seen State.rdata64 (exec (.readReg 0x18#8) { start with dataWidth := 12, rlcWidth := 5 }) = some 3#64 := by
  decide

/-- G12: a reserved address reads 0 and raises BAD_REG. -/
theorem test_read_reserved :
    seen (fun t => (t.rdata64, t.status)) (exec (.readReg 0x05#8) { start with rdata64 := 9 }) =
      some (0#64, 0x20#8) := by
  decide

/-- A1. -/
theorem test_arm :
    seen (fun t => (t.state, t.rxEn, t.delayRaw, t.budgetBytes, t.status)) (exec .arm base) =
      some (.accumulating, true, 499, 1000, 0x00#8) := by
  decide

/-- Q5: the state check comes first. -/
theorem test_arm_while_active :
    seen (fun t => (t.state, t.status)) (exec .arm { armed with dataWidth := 0 }) =
      some (.accumulating, 0x40#8) := by
  decide

/-- A14: the count is kept. -/
theorem test_abort :
    seen (fun t => (t.state, t.rxEn, t.status, t.transferredBytes, t.sink))
      (exec .abort { armed with transferredBytes := 3 }) =
      some (.done, false, 0x08#8, 3, [.endOfAcquisition]) := by
  decide

/-- A16: ABORT during delivery is illegal, and the delivery goes on. -/
theorem test_abort_delivering :
    seen (fun t => (t.state, t.status, t.sink)) (exec .abort ready) = some (.delivering, 0x40#8, []) := by
  decide

/-- 41_command_frames.md R140–R159: each wire opcode puts its one byte on the wire, raw. -/
theorem test_wire_opcodes_sent :
    seen State.tx (exec .reset start) = some [0xEE#8] ∧ seen State.tx (exec .escape start) = some [0x55#8] ∧
    seen State.tx (exec .getBusWidths start) = some [0xAA#8] ∧ seen State.tx (exec .getId start) = some [0xBB#8] ∧
    seen State.tx (exec .getFeatures start) = some [0x10#8] ∧ seen State.tx (exec .getRlcWidth start) = some [0x60#8] ∧
    seen State.tx (exec .getChannelNames start) = some [0x70#8] ∧
    seen State.tx (exec .getSampleRate start) = some [0x80#8] ∧ seen State.tx (exec .start start) = some [0xFE#8] ∧
    seen State.tx (exec .configureLA start) = some [0x0F#8] ∧ seen State.tx (exec .laDelaySub start) = some [0x1F#8] := by
  decide

/-- The same, for the trigger opcodes. -/
theorem test_trigger_opcodes_sent :
    seen State.tx (exec .configureTrigger start) = some [0xF0#8] ∧
    seen State.tx (exec .triggerMasksGroup start) = some [0xF1#8] ∧
    seen State.tx (exec .triggerMasksLastGroup start) = some [0xF9#8] ∧
    seen State.tx (exec .triggerMaskSel start) = some [0xF3#8] ∧
    seen State.tx (exec .triggerValueSel start) = some [0xF7#8] ∧
    seen State.tx (exec .triggerMaskLastSel start) = some [0xFB#8] ∧
    seen State.tx (exec .triggerValueLastSel start) = some [0xFF#8] ∧
    seen State.tx (exec .edgeSelect start) = some [0xF5#8] ∧ seen State.tx (exec .edgeSet start) = some [0xF6#8] := by
  decide

/-! ### The decoder's steps -/

/-- X3 (B = 4): the excess byte is dropped. -/
theorem test_rx_ready_truncates :
    let s := { armed with transferredBytes := 3, rx := [0xCD, 0x99], rawbuf := [(0, 0x00), (1, 0xAB), (2, 0x02)] }
    seen results (takeTurn (.rxReady 2) s) = some ⟨.decoding, 4, 0, 0, 0x02#8⟩ ∧
    seen (fun t => t.rx.length) (takeTurn (.rxReady 2) s) = some 0 ∧
    seen (fun t => (Store.read t.rawbuf 3, Store.read t.rawbuf 4)) (takeTurn (.rxReady 2) s) =
      some (some 0xCD#8, none) := by
  decide

/-- K2, K12. -/
theorem test_decode_expands :
    seen (fun t => (t.totalSamples, t.delayValue, t.delivPhase)) (takeTurn .decoderStep full) = some (4, 1, .pre) ∧
    seen (fun t => t.rpt.map Prod.snd) (takeTurn .decoderStep full) = some [1, 3] ∧
    seen (fun t => t.outbuf.map Prod.snd) (takeTurn .decoderStep full) = some [0xAB#8, 0xCD#8, 0xCD#8, 0xCD#8] := by
  decide

/-- K1, K11. -/
theorem test_decode_plain :
    seen (fun t => (t.totalSamples, t.delayValue, t.delivPhase, t.outSrc))
      (takeTurn .decoderStep { fullPlain with delayRaw := 1 }) = some (4, 1, .pre, .rawbuf) := by
  decide

/-- K4: code and payload cross the nibbles. K6: a one-bit code and a 16-bit payload. -/
theorem test_payload_window :
    payloadOf 4 1 [0x52#8, 0x0A#8] (fun _ => 0xFF#8) = [0xA5#8] ∧ repeatsOf 4 [0x52#8, 0x0A#8] = 3 ∧
    payloadOf 1 2 [0x03#8, 0x00#8, 0x01#8] (fun _ => 0xFF#8) = [0x01#8, 0x80#8] ∧ repeatsOf 1 [0x03#8, 0x00#8, 0x01#8] = 2 := by
  decide

/-- K17: the output does not fit. -/
theorem test_decode_alloc_fail :
    seen (fun t => (results t, t.sink))
      (takeTurn .decoderStep { full with params := { roomy with outCapacityBytes := 3 } }) =
      some (⟨.done, 4, 0, 0, 0x04#8⟩, [.endOfAcquisition]) := by
  decide

/-- V2: the first event of the delivery. -/
theorem test_deliver_pre :
    seen (fun t => (t.sink, t.delivPhase)) (takeTurn .decoderStep ready) = some ([.logic [0xAB#8] 1], .trig) := by
  decide

/-- V2: the last events of the delivery. -/
theorem test_deliver_post :
    seen (fun t => (t.sink, t.state, t.rxEn)) (takeTurn .decoderStep { ready with delivPhase := .post }) =
      some ([.logic [0xCD#8, 0xCD#8, 0xCD#8] 1, .endOfAcquisition], .done, false) := by
  decide

/-- Q2: reset in ACCUMULATING emits no END and leaves the RX stream. -/
theorem test_reset_input :
    seen (fun t => (t.state, t.sink, t.rx, t.limitSamples)) (takeTurn .resetInput { armed with rx := [7] }) =
      some (.idle, [], [7#8], 1#64) := by
  decide

/-! ### The escape codec, the frames and the host functions -/

/-- E18, E24, E26. -/
theorem test_escape_and_unesc :
    escapeBytes [0x55#8, 0xEE#8, 0x12#8] = [0x55#8, 0x55#8, 0x55#8, 0xEE#8, 0x12#8] ∧
    unesc [0x12#8, 0x55#8, 0x55#8, 0xEE#8] = [.data 0x12#8, .data 0x55#8, .reset] ∧
    unesc [0x55#8, 0xFE#8] = [.data 0xFE#8] ∧ unesc [0x55#8] = [.pending] := by
  decide

/-- F1, F11, F13. -/
theorem test_frames :
    wireOfProgram (trigVec 0xF1#8 0xF3#8 [0x01#8, 0x80#8]) = [0xF0#8, 0xF1#8, 0xF3#8, 0x80#8, 0x01#8] ∧
    wireOfProgram (delayFrame 3 0x05EE55) = [0x0F#8, 0x1F#8, 0x05#8, 0x55#8, 0xEE#8, 0x55#8, 0x55#8] ∧
    wireOfProgram (channelNamesFrame 85) = [0x70#8, 0x55#8, 0x55#8] := by
  decide

/-- P1: the TX stream of its frames, delay 511, ARM and start. -/
theorem test_start_sequence :
    wireOfProgram (startSequence ⟨[0x55#8], [0x55#8], [0x00#8], [0x00#8], [0x00#8]⟩ 2 511) =
      [0xF0#8, 0xF1#8, 0xF3#8, 0x55#8, 0x55#8, 0xF0#8, 0xF1#8, 0xF7#8, 0x55#8, 0x55#8, 0xF0#8, 0xF9#8, 0xFB#8,
       0x00#8, 0xF0#8, 0xF9#8, 0xFF#8, 0x00#8, 0xF0#8, 0xF5#8, 0xF6#8, 0x00#8, 0x0F#8, 0x1F#8, 0x01#8, 0xFF#8,
       0xFE#8] := by
  decide

/-- S3 (H16), H20, H21, H24. -/
theorem test_trigger_translation :
    translate 8 [⟨5, true, .rising⟩] = some ⟨[0x20#8], [0x20#8], [0x20#8], [0x00#8], [0x00#8]⟩ ∧
    translate 8 [⟨0, true, .one⟩, ⟨0, true, .edge⟩] = some ⟨[0x00#8], [0x01#8], [0x00#8], [0x00#8], [0x01#8]⟩ ∧
    translate 8 [⟨1, true, .rising⟩, ⟨1, true, .falling⟩] = some ⟨[0x02#8], [0x00#8], [0x02#8], [0x02#8], [0x00#8]⟩ ∧
    translate 8 [⟨8, true, .one⟩] = none := by
  decide

/-- H30, H32, H33, H35. -/
theorem test_delay_raw :
    delayRawOf 101 1 = 1 ∧ delayRawOf 1001 7 = 70 ∧ delayRawOf 1024 50 = 511 ∧ delayRawOf 1048576 33 = 346029 := by
  decide

/-- F18: version 1, features 0xF; one channel here, its name "D" (42_host_functions.md R194). -/
theorem test_negotiation_asks_everything :
    wireOfProgram (negotiate [.ok [0x69#8, 0x64#8, 0x62#8, 0x67#8], .ok [0x0F#8, 0#8, 0#8, 0#8],
      .ok [1#8, 0#8, 0#8, 0#8, 0x0A#8, 0#8, 0#8, 0#8], .ok [0x04#8], .ok [1#8], .ok [0x44#8],
      .ok [0#8, 0xE1#8, 0xF5#8, 0x05#8, 0#8, 0#8, 0#8, 0#8]] (startNegotiation HostState.initial)).2 =
      [0xBB#8, 0x10#8, 0xAA#8, 0x60#8, 0x70#8, 0x01#8, 0x80#8] := by
  decide

/-- H5, H12: the widths of a query that timed out, and the sample rate of a reply. -/
theorem test_sub_query_values :
    busWidthsOf none = (0, 0) ∧
    sampleRateOf (some [0#8, 0xE1#8, 0xF5#8, 0x05#8, 0#8, 0#8, 0#8, 0#8]) = some 100000000#64 := by
  decide

/-! ### Witnesses: states and operands that meet the hypotheses of the statements -/

/-- A turn placed on a state's schedule is the next turn. -/
theorem step_of_turn (t : Turn) (ts : List Turn) (s : State) :
    step { s with schedule := t :: ts } = takeTurn t { s with schedule := ts } := rfl

/-- Obligations.DecodeOfEncodeIsTheInstruction. -/
theorem witness_well_formed : (Instr.writeReg 0xFF#8 7#64).wellFormed = true := by decide

/-- Obligations.EncodeOfDecodeIsTheItemUpToIgnoredData, both clauses. -/
theorem witness_items_decode :
    decode (.hcw 0x1000#16 9#64) = .ok .arm ∧ decode (.wire 0xFE#8) = .ok .start := by
  decide

/-- Obligations.IllegalWordOnlyRaisesIllegalCmd: HOP just outside the map, ARG8 just off zero, and a legal word. -/
theorem witness_illegal_words :
    0x0300 / 256 ∉ [0x00, 0x01, 0x02, 0x10, 0x11, 0x20, 0x21] ∧ 0x2200 / 256 ∉ [0x00, 0x01, 0x02, 0x10, 0x11, 0x20, 0x21] ∧
    (0x1101 / 256 ∈ [0x00, 0x10, 0x11] ∧ 0x1101 % 256 ≠ 0x00) ∧
    ¬ (0x21FF / 256 ∉ [0x00, 0x01, 0x02, 0x10, 0x11, 0x20, 0x21] ∨ (0x21FF / 256 ∈ [0x00, 0x10, 0x11] ∧ 0x21FF % 256 ≠ 0x00)) := by
  decide

/-- Obligations.StepRunsTheDecodedInstruction, both clauses. -/
theorem witness_step_runs :
    (∃ s : State, s.schedule = [.hostOp] ∧ s.port = [.hcw 0x1000#16 0#64] ∧ decode (.hcw 0x1000#16 0#64) = .ok .arm) ∧
    decodeTableWord 16 0x1100 = some .abort ∧ decodeTableWord 8 0xBB = some .getId :=
  ⟨⟨{ base with schedule := [.hostOp], port := [.hcw 0x1000#16 0#64] }, rfl, rfl, by decide⟩, by decide, by decide⟩

/-- Obligations.SendEscapedSendsThroughTheEscapeRule: the two sentinels and a neighbour of each. -/
theorem witness_sentinels :
    (0xEE#8 = 0xEE#8 ∨ 0xEE#8 = 0x55#8) ∧ (0x55#8 = 0xEE#8 ∨ 0x55#8 = 0x55#8) ∧
    (0xEF#8 ≠ 0xEE#8 ∧ 0xEF#8 ≠ 0x55#8) ∧ (0x54#8 ≠ 0xEE#8 ∧ 0x54#8 ≠ 0x55#8) := by
  decide

/-- Obligations.SendEscapedOfASequenceAppendsItsEscape and OpcodesAreProtectedFromPayload: a sentinel and a byte that is none,
an opcode and a sentinel. -/
theorem witness_writes_ok :
    start.writesOk (escapeBytes [0xEE#8, 0x12#8]).length ∧
    start.writesOk ([Instr.start, .sendEscaped 0x55#8].flatMap wireOf).length ∧
    ∀ i ∈ [Instr.start, .sendEscaped 0x55#8], sendsNoBareEscape i = true := by
  refine ⟨⟨by decide, by decide⟩, ⟨by decide, by decide⟩, by decide⟩

/-- Obligations.RunningAProgramPutsItsWireBytesOnTheTxStream: a program with an item after it, its writes ok. -/
theorem witness_running :
    ({ start with port := channelNamesFrame 85 ++ [encode .nop] } : State).writesOk (wireOfProgram (channelNamesFrame 85)).length ∧
    seen (fun t => (t.tx, t.port)) (takeTurns (List.replicate (channelNamesFrame 85).length .hostOp)
      { start with port := channelNamesFrame 85 ++ [encode .nop] }) = some ([0x70#8, 0x55#8, 0x55#8], [encode .nop]) :=
  ⟨⟨by decide, by decide⟩, by decide⟩

/-- Obligations.TxStreamAndSinkOnlyGrow: a step that sends, and a step that delivers. -/
theorem witness_steps_that_grow :
    seen (fun t => t.tx) (step { start with schedule := [.hostOp], port := [.hcw 0x01BB#16 0#64] }) = some [0xBB#8] ∧
    seen (fun t => t.sink.length) (step { ready with schedule := [.decoderStep] }) = some 1 := by
  decide

/-- Obligations.NopChangesNothing, the nonzero ARG8. -/
theorem witness_nop_arg : (0x01#8 : Byte) ≠ 0x00#8 ∧ (0xFF#8 : Byte) ≠ 0x00#8 := by decide

/-- Obligations.ConfigWriteTakesEffectWhenIdle: both states; the width whose power no longer fits, and the last that does. -/
theorem witness_config_write :
    base.state = .idle ∧ finished.state = .done ∧
    seen State.limitSamples (exec (.writeReg 0x01#8 64#64) base) = some 0#64 ∧
    seen State.limitSamples (exec (.writeReg 0x01#8 63#64) finished) = some 0x8000000000000000#64 := by
  decide

/-- Obligations.ConfigWriteIsLockedWhileActive: the first and the last address, in each active state. -/
theorem witness_config_locked :
    (0x00#8).toNat ≤ 0x04 ∧ (0x04#8).toNat ≤ 0x04 ∧ armed.state = .accumulating ∧ full.state = .decoding ∧
    ready.state = .delivering ∧
    seen (fun t => (t.captureRatio, t.status)) (exec (.writeReg 0x04#8 1#64) ready) = some (100#8, 0x10#8) := by
  decide

/-- Obligations.ReservedAndReadOnlyAddressesRaiseBadReg: the ends of each range, and that the ranges do not meet. -/
theorem witness_bad_registers :
    (∀ a ∈ [0x05, 0x0F, 0x1C, 0xFF], (0x05 ≤ a ∧ a ≤ 0x0F) ∨ 0x1C ≤ a) ∧
    (∀ a ∈ [0x10, 0x12, 0x1B], a = 0x10 ∨ (0x12 ≤ a ∧ a ≤ 0x1B)) ∧
    ∀ a ∈ [0x05, 0x0F, 0x1C, 0xFF], ¬ (a = 0x10 ∨ (0x12 ≤ a ∧ a ≤ 0x1B)) := by
  decide

/-- Obligations.ReadRegReturnsEachRegister and RegistersReadTheirResetValues: the first and the last register, and one computed. -/
theorem witness_read_registers :
    seen State.rdata64 (exec (.readReg 0x00#8) base) = some 8#64 ∧
    seen State.rdata64 (exec (.readReg 0x1A#8) base) = some 1000#64 ∧
    seen State.rdata64 (exec (.readReg 0x1B#8) ready) = some 1#64 := by
  decide

/-- Obligations.StatusBitsAreSticky: a set bit that a step clears, by a write and by a reset. -/
theorem witness_sticky :
    ({ armed with status := 0x02 } : State).status.getLsbD 1 = true ∧
    seen (fun t => t.status.getLsbD 1)
      (step { armed with status := 0x02, schedule := [.hostOp], port := [.hcw 0x2011#16 2#64] }) = some false ∧
    seen (fun t => t.status.getLsbD 1) (step { armed with status := 0x02, schedule := [.resetInput] }) = some false := by
  decide

/-- Obligations.ArmFollowsItsChecksInOrder: the budget one byte too large, and exactly fitting. -/
theorem witness_arm :
    seen results (exec .arm { base with params := { roomy with rawCapacityBytes := 999 } }) = some ⟨.done, 0, 0, 0, 0x04#8⟩ ∧
    seen results (exec .arm { base with params := { roomy with rawCapacityBytes := 1000 } }) =
      some ⟨.accumulating, 0, 0, 0, 0x00#8⟩ ∧
    seen results (exec .arm armed) = some ⟨.accumulating, 0, 0, 0, 0x40#8⟩ := by
  decide

/-- The checks at their bounds: widths 0 and too large, no sample and one sample too many, ratio 101; each fails, and the
bounds themselves pass. -/
theorem witness_arm_checks :
    ({ base with dataWidth := 0 } : State).cfgValid = false ∧ ({ base with dataWidth := 513 } : State).cfgValid = false ∧
    ({ base with addrWidth := 21 } : State).cfgValid = false ∧ ({ base with rlcWidth := 33 } : State).cfgValid = false ∧
    ({ base with limitSamples := 0 } : State).cfgValid = false ∧
    ({ base with limitSamples := 1025 } : State).cfgValid = false ∧
    ({ base with captureRatio := 101 } : State).cfgValid = false ∧
    ({ base with dataWidth := 512, addrWidth := 20, rlcWidth := 32, captureRatio := 100 } : State).cfgValid = true ∧
    ({ base with dataWidth := 1, limitSamples := 1024, captureRatio := 0 } : State).cfgValid = true := by
  decide

/-- Obligations.AbortEndsTheAcquisition: the five states. -/
theorem witness_abort :
    armed.state = .accumulating ∧ full.state = .decoding ∧ base.state = .idle ∧ ready.state = .delivering ∧
    finished.state = .done := by
  decide

/-- Obligations.EveryEntryIntoDonePerformsItsActions: an active and an inactive entry. -/
theorem witness_done_entries :
    full.state ≠ .done ∧ full.active = true ∧
    seen State.state (step { full with schedule := [.hostOp], port := [.hcw 0x1100#16 0#64] }) = some .done ∧
    base.state ≠ .done ∧ base.active = false ∧
    seen State.state (step { base with
      params := { roomy with rawCapacityBytes := 1 }, schedule := [.hostOp], port := [.hcw 0x1000#16 0#64] }) =
      some .done := by
  decide

/-- Obligations.InstructionsKeepWhatTheyDoNotName: an instruction of each kind answers a next state. -/
theorem witness_exec_answers :
    (∃ t, exec .nop ready = .next t) ∧ (∃ t, exec (.sendEscaped 0xEE#8) ready = .next t) ∧
    (∃ t, exec (.readReg 0x11#8) ready = .next t) ∧ (∃ t, exec (.writeReg 0x00#8 1#64) base = .next t) ∧
    (∃ t, exec .abort full = .next t ∧ t.state = .done) :=
  ⟨⟨_, rfl⟩, ⟨_, rfl⟩, ⟨_, rfl⟩, ⟨_, rfl⟩, ⟨_, rfl, rfl⟩⟩

/-- Obligations.RxReadyStoresUpToTheBudget: not enabled; enabled with an empty chunk, an exact fill, and one byte too many. -/
theorem witness_rx_ready :
    ¬ (full.state = .accumulating ∧ full.rxEn = true) ∧ armed.state = .accumulating ∧ armed.rxEn = true ∧
    armed.transferredBytes ≤ armed.budgetBytes ∧ armed.budgetBytes ≤ armed.params.rawCapacityBytes ∧
    seen results (takeTurn (.rxReady 0) { armed with rx := [1, 2, 3, 4, 5] }) = some ⟨.accumulating, 0, 0, 0, 0x00#8⟩ ∧
    seen results (takeTurn (.rxReady 4) { armed with rx := [1, 2, 3, 4, 5] }) = some ⟨.decoding, 4, 0, 0, 0x00#8⟩ ∧
    seen results (takeTurn (.rxReady 5) { armed with rx := [1, 2, 3, 4, 5] }) = some ⟨.decoding, 4, 0, 0, 0x02#8⟩ := by
  decide

/-- Obligations.PlainDecodeUsesTheRawBuffer. -/
theorem witness_plain : fullPlain.state = .decoding ∧ fullPlain.rlcWidth = 0#8 := by decide

/-- Obligations.ExpandedDecodeCountsTheRepeats and ExpandedBufferHoldsEachPayloadRepeated: capacities that are just enough. -/
theorem witness_expanded :
    full.state = .decoding ∧ 0 < full.rlcWidth.toNat ∧
    ∃ t, takeTurn .decoderStep { full with
        params := { roomy with rawCapacityBytes := 4, rptCapacityEntries := 2, outCapacityBytes := 4 } } = .next t ∧
      t.state = .delivering :=
  ⟨by decide, by decide, next_of_seen (by decide)⟩

/-- Obligations.DecodeThatDoesNotFitEndsTheAcquisition: each capacity one too small. -/
theorem witness_does_not_fit :
    seen results (takeTurn .decoderStep { full with params := { roomy with rptCapacityEntries := 1 } }) =
      some ⟨.done, 4, 0, 0, 0x04#8⟩ ∧
    seen results (takeTurn .decoderStep { full with params := { roomy with outCapacityBytes := 3 } }) =
      some ⟨.done, 4, 0, 0, 0x04#8⟩ := by
  decide

/-- Obligations.PayloadHoldsTheChannelBits: a code inside a byte, and a code of whole bytes. -/
theorem witness_payload : [0x52#8, 0x0A#8].length = (8 + 4 + 7) / 8 ∧ [0x01#8, 0x00#8, 0x7E#8].length = (8 + 16 + 7) / 8 := by
  decide

/-- A space is filled if every address reads a value. -/
theorem filled_of_all {m : Memory} {n : Nat} (h : (List.range n).all (fun a => (Store.read m a).isSome) = true) :
    Store.filled m n := fun a ha => by
  simpa using List.all_eq_true.mp h a (List.mem_range.mpr ha)

/-- Every listed address is below a bound. -/
theorem below_of_all {α : Type} {m : Store α} {n : Nat} (h : m.all (fun e => decide (e.1 < n)) = true) :
    Store.below m n := fun e he => by
  simpa using List.all_eq_true.mp h e he

/-- Obligations.DecodeLeavesAPostTriggerSample and EveryStepKeepsTheInvariant: an acquisition with all its bytes received. -/
theorem witness_full_inv : full.Inv where
  paramsWf := by decide
  rawbufWf := by decide
  rptWf := by decide
  outbufWf := by decide
  rawbufBelow := below_of_all (by decide)
  rptBelow := below_of_all (by decide)
  outbufBelow := below_of_all (by decide)
  rxEnActive := by decide
  configChecked := by decide
  budgetFits := by decide
  delayLatched := by decide
  accumulatingShort := by decide
  decodingFull := by decide
  rawbufFilled := fun _ => filled_of_all (by decide)
  totalBounds := by decide
  delayInside := by decide
  plainSource := by decide
  expandedSource := fun h => absurd h (by decide)
  prePhase := by decide

/-- Its DECODE answers a state in DELIVERING. -/
theorem witness_full_decodes : ∃ t, takeTurn .decoderStep full = .next t ∧ t.state = .delivering :=
  next_of_seen (by decide)

/-- Obligations.DeliveryHandsTheSinkItsSequence: with samples before the trigger. -/
theorem witness_ready_inv :
    ready.Inv ∧ ready.state = .delivering ∧ ready.delivPhase = (if 0 < ready.delayValue then .pre else .trig) :=
  ⟨{ paramsWf := by decide
     rawbufWf := by decide
     rptWf := by decide
     outbufWf := by decide
     rawbufBelow := below_of_all (by decide)
     rptBelow := below_of_all (by decide)
     outbufBelow := below_of_all (by decide)
     rxEnActive := by decide
     configChecked := by decide
     budgetFits := by decide
     delayLatched := by decide
     accumulatingShort := by decide
     decodingFull := by decide
     rawbufFilled := fun _ => filled_of_all (by decide)
     totalBounds := by decide
     delayInside := by decide
     plainSource := by decide
     expandedSource := fun _ _ => ⟨by decide, by decide, filled_of_all (by decide)⟩
     prePhase := by decide }, by decide, by decide⟩

/-- Obligations.DeliveryHandsTheSinkItsSequence: with the trigger at the first sample. -/
theorem witness_ready_at_trigger :
    ({ ready with captureRatio := 0, delayRaw := 0, delayValue := 0, delivPhase := .trig } : State).Inv :=
  { paramsWf := by decide
    rawbufWf := by decide
    rptWf := by decide
    outbufWf := by decide
    rawbufBelow := below_of_all (by decide)
    rptBelow := below_of_all (by decide)
    outbufBelow := below_of_all (by decide)
    rxEnActive := by decide
    configChecked := by decide
    budgetFits := by decide
    delayLatched := by decide
    accumulatingShort := by decide
    decodingFull := by decide
    rawbufFilled := fun _ => filled_of_all (by decide)
    totalBounds := by decide
    delayInside := by decide
    plainSource := by decide
    expandedSource := fun _ _ => ⟨by decide, by decide, filled_of_all (by decide)⟩
    prePhase := by decide }

/-- Obligations.EachDeliveryStepHandsItsEvent: a state of each DELIV_PHASE that meets the invariant, TX_FAIL having been raised
by a host operation between the steps. -/
theorem witness_delivery_phases :
    (ready.Inv ∧ ready.state = .delivering ∧ ready.delivPhase = .pre) ∧
    ({ ready with delivPhase := .trig, status := 1 } : State).Inv ∧
    ({ ready with delivPhase := .post, status := 1 } : State).Inv :=
  ⟨⟨witness_ready_inv.1, rfl, rfl⟩,
    { witness_ready_inv.1 with prePhase := fun _ h => by cases h },
    { witness_ready_inv.1 with prePhase := fun _ h => by cases h }⟩

/-- The invariant reads neither the schedule nor the port. -/
theorem inv_with_turns {s : State} (h : s.Inv) (ts : List Turn) (cs : List Command) :
    ({ s with schedule := ts, port := cs } : State).Inv where
  paramsWf := h.paramsWf
  rawbufWf := h.rawbufWf
  rptWf := h.rptWf
  outbufWf := h.outbufWf
  rawbufBelow := h.rawbufBelow
  rptBelow := h.rptBelow
  outbufBelow := h.outbufBelow
  rxEnActive := h.rxEnActive
  configChecked := h.configChecked
  budgetFits := h.budgetFits
  delayLatched := h.delayLatched
  accumulatingShort := h.accumulatingShort
  decodingFull := h.decodingFull
  rawbufFilled := h.rawbufFilled
  totalBounds := h.totalBounds
  delayInside := h.delayInside
  plainSource := h.plainSource
  expandedSource := h.expandedSource
  prePhase := h.prePhase

/-- Obligations.EveryStepKeepsTheInvariant and MachineNeverStopsUnderTheInvariant: a state that meets the invariant, and a step
of it that answers a next state. -/
theorem witness_inv_step :
    ({ ready with schedule := [.decoderStep], port := [] } : State).Inv ∧
    ∃ t, step { ready with schedule := [.decoderStep], port := [] } = .next t ∧ t.delivPhase = .trig :=
  ⟨inv_with_turns witness_ready_inv.1 _ _, next_of_seen (by decide)⟩

/-- Obligations.StateMovesOnlyAlongItsEdges: a step along each edge. -/
theorem witness_edges :
    seen State.state (step { armed with schedule := [.resetInput] }) = some .idle ∧
    seen State.state (step { finished with schedule := [.hostOp], port := [.hcw 0x1000#16 0#64] }) = some .accumulating ∧
    seen State.state (step { armed with schedule := [.rxReady 4], rx := [0, 0xAB, 2, 0xCD] }) = some .decoding ∧
    seen State.state (step { full with schedule := [.decoderStep] }) = some .delivering ∧
    seen State.state (step { ready with schedule := [.decoderStep], delivPhase := .post }) = some .done := by
  decide

/-- Obligations.ConfigurationIsConstantDuringAnAcquisition: a step of an active acquisition that is no reset. -/
theorem witness_active_step :
    nextTurn { full with schedule := [.decoderStep] } ≠ .resetInput ∧
    ∃ t, step { full with schedule := [.decoderStep] } = .next t ∧ t.state = .delivering :=
  ⟨by decide, next_of_seen (by decide)⟩

/-- Obligations.ResultsLiveUntilTheNextArm: a step in DONE that is neither ARM nor reset. -/
theorem witness_done_step :
    let s := { finished with schedule := [.hostOp], port := [.hcw 0x1100#16 0#64] }
    s.state = .done ∧ ¬ s.issues .arm ∧ nextTurn s ≠ .resetInput ∧ ∃ t, step s = .next t ∧ t.status = 0x40#8 := by
  refine ⟨rfl, ?_, by decide, next_of_seen (by decide)⟩
  rintro ⟨-, c, cs, hp, hd⟩
  obtain ⟨rfl, rfl⟩ := List.cons.inj hp
  exact absurd hd (by decide)

/-- Obligations.RxStreamIsConsumedFromTheFront: bytes added, taken by the block, and taken by the host. -/
theorem witness_rx_stream :
    seen State.rx (step { armed with schedule := [.deviceSends [9]], rx := [8] }) = some [8#8, 9#8] ∧
    seen State.rx (step { armed with schedule := [.rxReady 1], rx := [8, 9] }) = some [9#8] ∧
    seen State.rx (step { start with
      schedule := [.hostRead .answered], rx := [1, 2, 3, 4, 5], host := { HostState.initial with phase := .awaiting .identity } }) =
      some [5#8] := by
  decide

/-- Obligations.TheTwoHalvesAreIndependent: an instruction that sends, in two states with the same answers to come; and a step of
the RX half of each kind. -/
theorem witness_two_halves :
    wireOf (.sendEscaped 0xEE#8) ≠ [] ∧ armed.answers = ready.answers ∧ armed.draws = ready.draws ∧
    (∃ t, exec (.sendEscaped 0xEE#8) armed = .next t) ∧ (∃ t, exec (.sendEscaped 0xEE#8) ready = .next t) ∧
    (∃ t, takeTurn (.rxReady 1) armed = .next t ∧ t.transferredBytes = 0) ∧
    ∃ t, takeTurn .decoderStep full = .next t ∧ t.state = .delivering :=
  ⟨by decide, rfl, rfl, ⟨_, rfl⟩, ⟨_, rfl⟩, next_of_seen (by decide), next_of_seen (by decide)⟩

/-- Obligations.CanonicalStoresAreDeterminedByTheirReads: the same bytes written in two orders. -/
theorem witness_canonical :
    Memory.wf (Store.write (Store.write [] 1 7#8) 0 5#8) ∧ Memory.wf (Store.write (Store.write [] 0 5#8) 1 7#8) ∧
    ∀ a, Store.read (Store.write (Store.write [] 1 7#8) 0 5#8) a = Store.read (Store.write (Store.write [] 0 5#8) 1 7#8) a := by
  refine ⟨Store.write_wf _ _ (Store.write_wf _ _ .nil), Store.write_wf _ _ (Store.write_wf _ _ .nil), fun a => ?_⟩
  simp only [Store.read_write]
  by_cases h : a = 0 <;> simp [h]

/-- Obligations.DelayRawStaysBelowTheSampleCount and DelayFrameCarriesTheDelay: the ends of the ranges. -/
theorem witness_delay :
    (1 ≤ 1 ∧ 0 ≤ 100) ∧ (1 ≤ 1024 ∧ 1024 ≤ 2 ^ 10 ∧ 100 ≤ 100) ∧ (1 ≤ 1 ∧ 1 ≤ 2 ^ 0) ∧ delayRawOf 1024 100 = 1023 := by
  decide

/-- Obligations.DeviceReadsTheStartSequence and TriggerTableSetsAndClearsItsBits: vectors of one length, sentinels in them, and the
last channel with a neighbour. -/
theorem witness_vectors :
    let v : TriggerVectors := ⟨[0xEE#8, 0x55#8], [0x55#8, 0#8], [0#8, 0#8], [0#8, 0#8], [0#8, 1#8]⟩
    v.mask.length = 2 ∧ v.value.length = 2 ∧ v.maskLast.length = 2 ∧ v.valueLast.length = 2 ∧ v.edgeMask.length = 2 ∧
    15 < 8 * 2 ∧ (14 : Nat) ≠ 15 := by
  decide

/-- Obligations.TriggerTranslationKeepsEdgeAndMaskApart: a channel at `data_width`, one below it, and both sides of the clause on
bits. -/
theorem witness_translation :
    (∃ sp ∈ [(⟨8, true, .one⟩ : TriggerSpec)], sp.enabled = true ∧ 8 ≤ sp.channel) ∧
    translate 8 [⟨7, true, .edge⟩, ⟨0, true, .rising⟩] = some ⟨[0x01#8], [0x01#8], [0x01#8], [0x00#8], [0x80#8]⟩ ∧
    channelOf [0x80#8] 7 = true ∧ channelOf [0x01#8] 0 = true := by
  refine ⟨⟨_, List.mem_singleton.mpr rfl, by decide, by decide⟩, by decide, by decide, by decide⟩

/-- Obligations.IdentityReplyIsMatchedExactly and EverySubQueryGoesOnWithItsDefault: H8's near miss, and other queries. -/
theorem witness_identity :
    [0x49#8, 0x64#8, 0x42#8, 0x67#8] ≠ [0x49#8, 0x44#8, 0x42#8, 0x47#8] ∧
    [0x49#8, 0x64#8, 0x42#8, 0x67#8] ≠ [0x69#8, 0x64#8, 0x62#8, 0x67#8] ∧ Query.features ≠ .identity ∧
    Query.sampleRate ≠ .identity := by
  decide

/-- Obligations.DeviceWithoutFeaturesIsAskedNothingMore: H1's widths. -/
theorem witness_widths : [8#8, 0#8, 0#8, 0#8, 0x0A#8, 0#8, 0#8, 0#8].length = 8 ∧ start.state = .idle := by decide

/-- The host of a version-1 device that has negotiated: eight channels, no features. -/
def negotiatedHost : HostState :=
  { HostState.initial with
    caps := { DeviceCapabilities.initial with protocolVersion := .v1, dataWidth := 8, addrWidth := 10 }
    vectors := zeroVectors 1
    phase := .negotiated }

/-- The END of an acquisition that the host follows has come. -/
def followed : State :=
  { finished with host := { negotiatedHost with phase := .acquiring 0 }, sink := [.endOfAcquisition] }

/-- The host after an identity mismatch (H8). -/
def mismatched : State := { start with host := { HostState.initial with phase := .failed .protocolMismatch } }

/-- Obligations.AFailedHostNeitherConfiguresNorArms: of an ARM, writes of the last configuration register and of the first
register past them, and an opcode, the failed host hands over the last two; a host of another phase all four. -/
theorem witness_failed_host :
    mismatched.FailedHostHoldsBack ∧
    seen State.port (step { mismatched with
      schedule := [.hostIssues [encode .arm, wreg .captureRatio 1, wreg .status 1, opc 0xEE#8]] }) =
      some [wreg .status 1, opc 0xEE#8] ∧
    seen State.port (step { start with
      schedule := [.hostIssues [encode .arm, wreg .captureRatio 1, wreg .status 1, opc 0xEE#8]] }) =
      some [encode .arm, wreg .captureRatio 1, wreg .status 1, opc 0xEE#8] :=
  ⟨fun _ _ _ h => (nomatch h), by decide, by decide⟩

/-- H8 with an ARM handed over after it: the identity mismatch leaves the block in IDLE. -/
theorem test_mismatch_does_not_arm :
    seen (fun t => (t.host.phase, t.state, t.status))
      (takeTurns [.hostRead .answered, .hostIssues [encode .arm], .hostOp]
        { base with rx := [0x49#8, 0x64#8, 0x42#8, 0x67#8], host := { HostState.initial with phase := .awaiting .identity } }) =
      some (.failed .protocolMismatch, .idle, 0x00#8) := by
  decide

/-- Obligations.HostVectorsHaveDataWidthBytes: a translation that fails leaves five vectors of one byte each (H24's channel). -/
theorem witness_vectors_sized :
    let s := { start with host := negotiatedHost, schedule := [.hostAcquire ⟨[⟨8, true, .one⟩], none, none⟩] }
    s.host.vectors.sized s.host.caps.dataWidthBytes ∧
    seen (fun t => (t.host.translationFailed, t.host.vectors.mask.length, t.host.vectors.edgeMask.length)) (step s) =
      some (true, 1, 1) :=
  ⟨⟨by decide, by decide, by decide, by decide, by decide⟩, by decide⟩

/-- Obligations.HostFollowsItsBootOrder: a step along each edge of steps 3 to 7 (70_reset_and_hazards.md R292). -/
theorem witness_boot_order :
    seen (fun t => t.host.phase) (step { start with schedule := [.hostNegotiate] }) = some (.awaiting .identity) ∧
    seen (fun t => t.host.phase) (step { start with
      schedule := [.hostRead (.timedOut 0)], host := { negotiatedHost with phase := .awaiting .sampleRate } }) =
      some .negotiated ∧
    seen (fun t => t.host.phase) (step { start with
      schedule := [.hostAcquire ⟨[], none, none⟩], host := negotiatedHost }) = some (.acquiring 0) ∧
    seen (fun t => (t.host.phase, t.port)) (step { armed with
      schedule := [.hostFollow], host := { negotiatedHost with phase := .acquiring 0 } }) =
      some (.polling 0, [.hcw 0x2110#16 0#64]) ∧
    seen (fun t => t.host.phase) (step { armed with
      schedule := [.hostFollow], host := { negotiatedHost with phase := .polling 0 }, rdata64 := 4#64 }) =
      some (.collecting .totalSamples) ∧
    seen (fun t => t.host.phase) (step { followed with schedule := [.hostFollow] }) = some (.collecting .totalSamples) := by
  decide

/-- The same, for the reset, from which the host negotiates again. -/
theorem test_reset_begins_the_session_again :
    seen (fun t => (t.host.phase, t.host.caps.dataWidth)) (step { start with schedule := [.resetInput], host := negotiatedHost }) =
      some (.notStarted, 0) := by
  decide

/-- Obligations.HostReadsTheResultsOfAnAcquisition (K2's results). -/
theorem witness_results :
    followed.host.phase = .acquiring 0 ∧ .endOfAcquisition ∈ followed.sink.drop 0 ∧ followed.port = [] ∧
    seen (fun t => t.host.results) (takeTurns [.hostFollow, .hostOp, .hostFollow, .hostOp, .hostFollow, .hostOp, .hostFollow]
      followed) = some ⟨some 4#64, some 1#64, some 0#64⟩ := by
  decide

/-- Obligations.HostAndDeviceLeaveTheBlockAlone: each of the six turns answers a next state. -/
theorem witness_host_turns :
    (∃ t, takeTurn .hostNegotiate start = .next t) ∧ (∃ t, takeTurn (.hostRead .answered) start = .next t) ∧
    (∃ t, takeTurn (.hostAcquire ⟨[], none, none⟩) start = .next t) ∧ (∃ t, takeTurn .hostFollow start = .next t) ∧
    (∃ t, takeTurn (.hostIssues [encode .nop]) start = .next t) ∧ (∃ t, takeTurn (.deviceSends [1]) start = .next t) :=
  ⟨⟨_, rfl⟩, ⟨_, rfl⟩, ⟨_, rfl⟩, ⟨_, rfl⟩, ⟨_, rfl⟩, ⟨_, rfl⟩⟩

end Sys2Proof.Tests
end

section
/-! The register file (10_state.md R23, R41): which addresses the map names, which of them a write reaches, and what READ_REG
and WRITE_REG do at all the others. -/

namespace Sys2Proof.Machine

/-! ### The map -/

/-- An address names the register whose address it is: no two registers share one. -/
theorem regAt_eq_some_iff {a : Byte} {r : Reg} : regAt a = some r ↔ r.addr = a := by
  constructor
  · intro h
    have hbeq := List.find?_some h
    exact eq_of_beq hbeq
  · rintro rfl
    cases r <;> rfl

/-- Where the map has rows: the configuration registers, then 0x10 to 0x1B. -/
theorem Reg.addr_range (r : Reg) : r.addr.toNat ≤ 0x04 ∨ (0x10 ≤ r.addr.toNat ∧ r.addr.toNat ≤ 0x1B) := by
  cases r <;> decide

/-- The reserved addresses name no register. -/
theorem regAt_eq_none_of_reserved {a : Byte} (h : (0x05 ≤ a.toNat ∧ a.toNat ≤ 0x0F) ∨ 0x1C ≤ a.toNat) :
    regAt a = none := by
  cases hr : regAt a with
  | none => rfl
  | some r =>
    have hrange := r.addr_range
    rw [regAt_eq_some_iff.mp hr] at hrange
    omega

/-- Only a register at 0x00 to 0x04 is a configuration register. -/
theorem addr_le_of_writeConfig_eq_some {r : Reg} {v : Word64} {s s' : State} (h : writeConfig r v s = some s') :
    r.addr.toNat ≤ 0x04 := by
  cases r
  case dataWidth | addrWidth | rlcWidth | limitSamples | captureRatio => decide
  all_goals cases h

/-! ### BAD_REG -/

/-- BAD_REG is not fatal: taking it sets STATUS bit 5 and nothing else. -/
theorem takeException_badReg (s : State) : takeException .badReg s = { s with status := s.status ||| 0x20#8 } := rfl

/-- A read of a reserved address returns 0 and raises BAD_REG. -/
theorem readRegister_of_regAt_eq_none {a : Byte} (h : regAt a = none) (s : State) :
    readRegister a s = { s with rdata64 := 0#64, status := s.status ||| 0x20#8 } := by
  obtain ⟨r, hr, -⟩ | ⟨-, heq⟩ := readRegister_cases a s
  · rw [h] at hr
    cases hr
  · rw [heq, takeException_badReg]

/-- A write that meets neither a configuration register nor STATUS, be the address reserved or read-only, raises BAD_REG and
changes nothing else. -/
theorem writeRegister_of_not_writable {a : Byte} (hconfig : 0x04 < a.toNat) (hstatus : a.toNat ≠ 0x11) (v : Word64)
    (s : State) : writeRegister a v s = { s with status := s.status ||| 0x20#8 } := by
  have not_config : ∀ {r s'}, regAt a = some r → writeConfig r v s ≠ some s' := fun hr hw => by
    have hle := addr_le_of_writeConfig_eq_some hw
    rw [regAt_eq_some_iff.mp hr] at hle
    omega
  obtain ⟨hr, -⟩ | ⟨r, s', hr, hw, -, -⟩ | ⟨r, s', hr, hw, -, -⟩ | heq := writeRegister_cases a v s
  · have haddr : Reg.status.addr = a := regAt_eq_some_iff.mp hr
    exact absurd (congrArg BitVec.toNat haddr.symm) hstatus
  · exact absurd hw (not_config hr)
  · exact absurd hw (not_config hr)
  · rw [heq, takeException_badReg]

/-! ### The two operations -/

theorem exec_readReg (a : Byte) (s : State) : exec (.readReg a) s = .next (readRegister a s) := rfl

theorem exec_writeReg (a : Byte) (v : Word64) (s : State) : exec (.writeReg a v) s = .next (writeRegister a v s) := rfl

/-- Settles O19: a reserved address names no register, and neither a reserved nor a read-only one is writable. -/
theorem reservedAndReadOnlyAddressesRaiseBadReg : Obligations.ReservedAndReadOnlyAddressesRaiseBadReg := by
  unfold Obligations.ReservedAndReadOnlyAddressesRaiseBadReg
  intro a v s
  constructor
  · intro hreserved
    constructor
    · rw [exec_readReg, readRegister_of_regAt_eq_none (regAt_eq_none_of_reserved hreserved)]
    · rw [exec_writeReg, writeRegister_of_not_writable (by omega) (by omega)]
  · intro hreadOnly
    rw [exec_writeReg, writeRegister_of_not_writable (by omega) (by omega)]

end Sys2Proof.Machine
end

section
/-! The legality of host command words (30_encoding.md R90, R91, R93): what the decoder answers for each kind of HOP, and
that a word it refuses only raises ILLEGAL_CMD. -/

namespace Sys2Proof

/-! ### The two fields as numbers -/

theorem hopOf_toNat (w : Hcw) : (hopOf w).toNat = w.toNat / 256 := by
  rw [hopOf, BitVec.extractLsb'_toNat, Nat.shiftRight_eq_div_pow]
  omega

theorem arg8Of_toNat (w : Hcw) : (arg8Of w).toNat = w.toNat % 256 := by
  rw [arg8Of, BitVec.extractLsb'_toNat, Nat.shiftRight_zero]

theorem arg8Of_eq_zero_iff (w : Hcw) : arg8Of w = 0x00#8 ↔ w.toNat % 256 = 0x00 := by
  rw [← BitVec.toNat_inj, arg8Of_toNat, BitVec.toNat_ofNat]

/-- The operations that need ARG8 to be 0x00, by the number in the HOP field. -/
theorem hopOf_mem_zeroArgHops_iff (w : Hcw) : hopOf w ∈ zeroArgHops ↔ w.toNat / 256 ∈ [0x00, 0x10, 0x11] := by
  rw [← hopOf_toNat]
  simp [zeroArgHops, ← BitVec.toNat_inj]

/-- The HOP map falls into the operations with a free ARG8 and those that need it to be 0x00. -/
theorem hop_mapped_iff (w : Hcw) :
    w.toNat / 256 ∈ [0x00, 0x01, 0x02, 0x10, 0x11, 0x20, 0x21] ↔ hopOf w ∈ freeArgHops ∨ hopOf w ∈ zeroArgHops := by
  rw [← hopOf_toNat]
  simp only [freeArgHops, zeroArgHops, List.mem_cons, List.not_mem_nil, or_false, ← BitVec.toNat_inj,
    BitVec.toNat_ofNat]
  omega

/-! ### What the decoder answers, by the kind of HOP -/

/-- An operation with a free ARG8 decodes whatever its ARG8. -/
theorem decode_of_mem_freeArgHops {w : Hcw} (h : hopOf w ∈ freeArgHops) (d : Word64) :
    ∃ i, decode (.hcw w d) = .ok i := by
  simp only [freeArgHops, List.mem_cons, List.not_mem_nil, or_false] at h
  obtain h | h | h | h := h
  · exact ⟨.sendOpcode (arg8Of w), by simp [decode, decodeHcw, h]⟩
  · exact ⟨.sendEscaped (arg8Of w), by simp [decode, decodeHcw, h]⟩
  · exact ⟨.writeReg (arg8Of w) d, by simp [decode, decodeHcw, h]⟩
  · exact ⟨.readReg (arg8Of w), by simp [decode, decodeHcw, h]⟩

/-- NOP, ARM and ABORT are decoded up to the check of their ARG8. -/
theorem decode_of_mem_zeroArgHops {w : Hcw} (h : hopOf w ∈ zeroArgHops) (d : Word64) :
    ∃ i, decode (.hcw w d) = needsZeroArg (hopOf w) (arg8Of w) i := by
  simp only [zeroArgHops, List.mem_cons, List.not_mem_nil, or_false] at h
  obtain h | h | h := h
  · exact ⟨.nop, by simp [decode, decodeHcw, h]⟩
  · exact ⟨.arm, by simp [decode, decodeHcw, h]⟩
  · exact ⟨.abort, by simp [decode, decodeHcw, h]⟩

/-- A HOP outside the map is refused by name. -/
theorem decode_of_not_mapped {w : Hcw} (h : ¬ (hopOf w ∈ freeArgHops ∨ hopOf w ∈ zeroArgHops)) (d : Word64) :
    decode (.hcw w d) = .error (.reservedHop (hopOf w)) := by
  simp only [freeArgHops, zeroArgHops, List.mem_cons, List.not_mem_nil, or_false, not_or] at h
  simp [decode, decodeHcw, h]

theorem needsZeroArg_of_ne_zero {arg : Byte} (h : arg ≠ 0x00#8) (hop : Byte) (i : Instr) :
    needsZeroArg hop arg i = .error (.nonzeroArg hop arg) := if_neg h

theorem needsZeroArg_of_eq_zero {arg : Byte} (h : arg = 0x00#8) (hop : Byte) (i : Instr) :
    needsZeroArg hop arg i = .ok i := if_pos h

/-- NOP, ARM and ABORT with ARG8 not 0x00 are refused by name. -/
theorem decode_of_nonzero_arg {w : Hcw} (h : hopOf w ∈ zeroArgHops) (harg : arg8Of w ≠ 0x00#8) (d : Word64) :
    decode (.hcw w d) = .error (.nonzeroArg (hopOf w) (arg8Of w)) := by
  obtain ⟨i, hi⟩ := decode_of_mem_zeroArgHops h d
  rw [hi, needsZeroArg_of_ne_zero harg]

/-- NOP, ARM and ABORT with ARG8 0x00 decode. -/
theorem decode_of_zero_arg {w : Hcw} (h : hopOf w ∈ zeroArgHops) (harg : arg8Of w = 0x00#8) (d : Word64) :
    ∃ i, decode (.hcw w d) = .ok i := by
  obtain ⟨i, hi⟩ := decode_of_mem_zeroArgHops h d
  exact ⟨i, by rw [hi, needsZeroArg_of_eq_zero harg]⟩

end Sys2Proof

namespace Sys2Proof.Machine

/-! ### What running a refused word does -/

/-- ILLEGAL_CMD is not fatal: taking it sets STATUS bit 6 and nothing else. -/
theorem takeException_illegalCmd (s : State) :
    takeException .illegalCmd s = { s with status := s.status ||| 0x40#8 } := rfl

theorem runItem_of_decode_error {c : Command} {e : DecodeError} (h : decode c = .error e) (s : State) :
    runItem c s = rejectItem e s := by
  rw [runItem, h]

theorem rejectItem_reservedHop (hop : Byte) (s : State) :
    rejectItem (.reservedHop hop) s = .next { s with status := s.status ||| 0x40#8 } := by
  rw [rejectItem, takeException_illegalCmd]

theorem rejectItem_nonzeroArg (hop arg : Byte) (s : State) :
    rejectItem (.nonzeroArg hop arg) s = .next { s with status := s.status ||| 0x40#8 } := by
  rw [rejectItem, takeException_illegalCmd]

/-- An item refused with an error that only raises ILLEGAL_CMD is no instruction and only raises ILLEGAL_CMD. -/
theorem refused_only_raises {c : Command} {e : DecodeError} (h : decode c = .error e)
    (hreject : ∀ s, rejectItem e s = .next { s with status := s.status ||| 0x40#8 }) :
    (∀ i, decode c ≠ .ok i) ∧ ∀ s : State, runItem c s = .next { s with status := s.status ||| 0x40#8 } := by
  constructor
  · intro i hok
    rw [h] at hok
    cases hok
  · intro s
    rw [runItem_of_decode_error h, hreject]

/-- Settles O3: a word is illegal for its HOP, or for its ARG8 under one of the three HOPs that check it; otherwise its HOP
takes any ARG8, or checks it and finds 0x00. -/
theorem illegalWordOnlyRaisesIllegalCmd : Obligations.IllegalWordOnlyRaisesIllegalCmd := by
  unfold Obligations.IllegalWordOnlyRaisesIllegalCmd
  intro w d hop arg illegal
  have illegal_iff : illegal ↔ ¬ (hopOf w ∈ freeArgHops ∨ hopOf w ∈ zeroArgHops) ∨
      (hopOf w ∈ zeroArgHops ∧ arg8Of w ≠ 0x00#8) := by
    rw [← hop_mapped_iff, hopOf_mem_zeroArgHops_iff, Ne, arg8Of_eq_zero_iff]
  rw [illegal_iff]
  constructor
  · rintro (hreserved | ⟨hzero, harg⟩)
    · exact refused_only_raises (decode_of_not_mapped hreserved d) (rejectItem_reservedHop _)
    · exact refused_only_raises (decode_of_nonzero_arg hzero harg d) (rejectItem_nonzeroArg _ _)
  · intro hlegal
    obtain ⟨hmapped, hargZero⟩ := not_or.mp hlegal
    obtain hfree | hzero := not_not.mp hmapped
    · exact decode_of_mem_freeArgHops hfree d
    · exact decode_of_zero_arg hzero (not_not.mp fun harg => hargZero ⟨hzero, harg⟩) d

end Sys2Proof.Machine
end

section
/-! The escape codec (40_escape_codec.md R120, R121, R127): what `enc` and `escape` are, that the reference de-escaper undoes
them, and what SEND_ESCAPED puts on the wire while every write answers ok. -/

namespace Sys2Proof.Machine

/-! ### The transform -/

theorem isSentinel_iff (b : Byte) : isSentinel b = true ↔ b = 0xEE#8 ∨ b = 0x55#8 := by
  simp [isSentinel, resetCode, escapeCode]

theorem enc_of_isSentinel {b : Byte} (h : isSentinel b = true) : enc b = [0x55#8, b] := if_pos h

theorem enc_of_not_isSentinel {b : Byte} (h : ¬ isSentinel b = true) : enc b = [b] := if_neg h

/-- `enc` as 30_encoding.md R97 writes it. -/
theorem enc_eq (b : Byte) : enc b = if b = 0xEE#8 ∨ b = 0x55#8 then [0x55#8, b] else [b] :=
  if_congr (isSentinel_iff b) rfl rfl

@[simp] theorem escapeBytes_nil : escapeBytes [] = [] := rfl

@[simp] theorem escapeBytes_cons (b : Byte) (bs : List Byte) : escapeBytes (b :: bs) = enc b ++ escapeBytes bs := rfl

/-- Each sentinel of a payload costs one byte more. -/
theorem length_escapeBytes (bs : List Byte) : (escapeBytes bs).length = bs.length + bs.countP isSentinel := by
  induction bs with
  | nil => rfl
  | cons b bs ih =>
    rw [escapeBytes_cons, List.length_append, ih, List.length_cons]
    by_cases h : isSentinel b = true
    · rw [enc_of_isSentinel h, List.countP_cons_of_pos h, List.length_cons, List.length_singleton]
      omega
    · rw [enc_of_not_isSentinel h, List.countP_cons_of_neg h, List.length_singleton]
      omega

/-- Settles O6: `enc` is the rule's replacement of one byte, and the bytes counted are the sentinels. -/
theorem escapeReplacesExactlyTheSentinels : Obligations.EscapeReplacesExactlyTheSentinels := by
  unfold Obligations.EscapeReplacesExactlyTheSentinels
  intro bs
  constructor
  · exact congrArg bs.flatMap (funext enc_eq)
  · rw [length_escapeBytes, List.countP_eq_length_filter]
    rfl

/-! ### The reference de-escaper -/

@[simp] theorem unesc_nil : unesc [] = [] := rfl

/-- After an escape code the next byte is data, whatever it is. -/
theorem unesc_escape_pair (x : Byte) (w : List Byte) : unesc (0x55#8 :: x :: w) = .data x :: unesc w := rfl

/-- Outside a pair a byte that is no sentinel is data. -/
theorem unesc_cons_of_not_isSentinel {x : Byte} (h : ¬ isSentinel x = true) (w : List Byte) :
    unesc (x :: w) = .data x :: unesc w := by
  obtain ⟨hreset, hescape⟩ := not_or.mp (mt (isSentinel_iff x).mpr h)
  rw [unesc, unescFrom]
  exact (if_neg hescape).trans (if_neg hreset)

/-- What `enc` makes of a byte is read as that byte, and the de-escaper is in mode NORMAL again. -/
theorem unesc_enc_append (b : Byte) (w : List Byte) : unesc (enc b ++ w) = .data b :: unesc w := by
  by_cases h : isSentinel b = true
  · rw [enc_of_isSentinel h]
    exact unesc_escape_pair b w
  · rw [enc_of_not_isSentinel h]
    exact unesc_cons_of_not_isSentinel h w

/-- An escaped payload is read as its bytes, whatever follows it. -/
theorem unesc_escapeBytes_append (bs w : List Byte) :
    unesc (escapeBytes bs ++ w) = bs.map .data ++ unesc w := by
  induction bs with
  | nil => rfl
  | cons b bs ih => rw [escapeBytes_cons, List.append_assoc, unesc_enc_append, ih, List.map_cons, List.cons_append]

theorem unesc_escapeBytes (bs : List Byte) : unesc (escapeBytes bs) = bs.map .data := by
  simpa using unesc_escapeBytes_append bs []

/-- `escape` has a left inverse: de-escape, and read the data tokens. -/
theorem escapeBytes_injective : Function.Injective escapeBytes := by
  intro bs cs h
  have hdata : bs.map Token.data = cs.map Token.data := by
    rw [← unesc_escapeBytes, ← unesc_escapeBytes, h]
  exact List.map_injective_iff.mpr (fun _ _ => Token.data.inj) hdata

/-- Settles O7: the round trip gives the other two claims, since it determines the payload and its tokens are all data. -/
theorem unescapeOfEscapeIsTheData : Obligations.UnescapeOfEscapeIsTheData := by
  unfold Obligations.UnescapeOfEscapeIsTheData
  refine ⟨unesc_escapeBytes, fun _ _ h => escapeBytes_injective h, fun bs => ?_⟩
  rw [unesc_escapeBytes]
  constructor <;> simp

/-! ### Writes that all answer ok -/

/-- `s` after its next writes, all answered ok by listed answers, put `w` on the TX stream. -/
def State.afterWrites (w : List Byte) (s : State) : State :=
  { s with tx := s.tx ++ w, answers := s.answers.drop w.length, draws := s.draws + w.length }

@[simp] theorem afterWrites_tx (w : List Byte) (s : State) : (s.afterWrites w).tx = s.tx ++ w := rfl

@[simp] theorem afterWrites_answers (w : List Byte) (s : State) :
    (s.afterWrites w).answers = s.answers.drop w.length := rfl

/-- Only the TX stream and the place in the link's answers have moved. -/
theorem afterWrites_frame (w : List Byte) (s : State) :
    { s.afterWrites w with tx := s.tx, answers := s.answers, draws := s.draws } = s := rfl

@[simp] theorem afterWrites_nil (s : State) : s.afterWrites [] = s := by
  simp [State.afterWrites]

theorem afterWrites_append (v w : List Byte) (s : State) :
    s.afterWrites (v ++ w) = (s.afterWrites v).afterWrites w := by
  simp [State.afterWrites, Nat.add_assoc]

/-- The writes of two pieces are answered ok when the first piece's are, and then the second piece's. -/
theorem writesOk_append {v w : List Byte} {s : State} (h : s.writesOk (v ++ w).length) :
    s.writesOk v.length ∧ (s.afterWrites v).writesOk w.length := by
  obtain ⟨hlen, hok⟩ := h
  rw [List.length_append] at hlen hok
  rw [List.take_add] at hok
  refine ⟨⟨by omega, fun a ha => hok a (List.mem_append_left _ ha)⟩,
    ⟨?_, fun a ha => hok a (List.mem_append_right _ ha)⟩⟩
  rw [afterWrites_answers, List.length_drop]
  omega

theorem txAnswer_of_writesOk {s : State} (h : s.writesOk 1) : txAnswer s = true := by
  obtain ⟨hlen, hok⟩ := h
  obtain ⟨a, rest, hanswers⟩ := List.exists_cons_of_length_pos hlen
  have ha : a = true := hok a (by simp [hanswers])
  simp [txAnswer, hanswers, ha]

theorem txWrite_of_writesOk {s : State} (h : s.writesOk 1) (b : Byte) : txWrite b s = s.afterWrites [b] := by
  rw [txWrite, if_pos (txAnswer_of_writesOk h), useAnswer, State.afterWrites, List.length_singleton, List.drop_one]

/-- A payload byte whose writes answer ok puts its encoding on the wire. -/
theorem sendPayload_of_writesOk {b : Byte} {s : State} (h : s.writesOk (enc b).length) :
    sendPayload b s = s.afterWrites (enc b) := by
  unfold sendPayload
  by_cases hb : isSentinel b = true
  · rw [enc_of_isSentinel hb] at h ⊢
    obtain ⟨hprefix, hbyte⟩ := writesOk_append (v := [0x55#8]) (w := [b]) h
    rw [if_pos hb, escapeCode, txWrite_of_writesOk hprefix, txWrite_of_writesOk hbyte, ← afterWrites_append]
    rfl
  · rw [enc_of_not_isSentinel hb] at h ⊢
    rw [if_neg hb, txWrite_of_writesOk h]

/-! ### SEND_ESCAPED of a sequence -/

theorem exec_sendEscaped (b : Byte) (s : State) : exec (.sendEscaped b) s = .next (sendPayload b s) := rfl

theorem execAll_cons_of_next {i : Instr} {s t : State} (h : exec i s = .next t) (is : List Instr) :
    execAll (i :: is) s = execAll is t := by
  rw [execAll, h]

/-- A payload whose writes all answer ok puts its escape on the wire. -/
theorem execAll_sendEscaped_of_writesOk (bs : List Byte) {s : State} (h : s.writesOk (escapeBytes bs).length) :
    execAll (bs.map .sendEscaped) s = .next (s.afterWrites (escapeBytes bs)) := by
  induction bs generalizing s with
  | nil => rw [escapeBytes_nil, afterWrites_nil, List.map_nil, execAll]
  | cons b bs ih =>
    obtain ⟨hfirst, hrest⟩ := writesOk_append h
    rw [List.map_cons, execAll_cons_of_next (exec_sendEscaped b s), sendPayload_of_writesOk hfirst, ih hrest,
      escapeBytes_cons, afterWrites_append]

/-- Settles O11: the state after the sequence is the one after the writes of its escape. -/
theorem sendEscapedOfASequenceAppendsItsEscape : Obligations.SendEscapedOfASequenceAppendsItsEscape := by
  unfold Obligations.SendEscapedOfASequenceAppendsItsEscape
  intro bs s h
  exact ⟨s.afterWrites (escapeBytes bs), execAll_sendEscaped_of_writesOk bs h, afterWrites_tx _ s, afterWrites_frame _ s⟩

end Sys2Proof.Machine
end

section
/-! The command frames (41_command_frames.md R160 to R162): what a frame puts on the wire, which bytes the delay frame carries,
and why the delay of a legal configuration fits in them. -/

namespace Sys2Proof.Machine

/-! ### A frame on the wire -/

theorem decode_opc (c : Byte) : decode (opc c) = .ok (.sendOpcode c) := by
  rw [opc, encode, decode, decodeHcw, hopOf_hcwOf, arg8Of_hcwOf]
  rfl

theorem decode_esc (b : Byte) : decode (esc b) = .ok (.sendEscaped b) := by
  rw [esc, encode, decode, decodeHcw, hopOf_hcwOf, arg8Of_hcwOf]
  rfl

theorem wireOfItem_of_decode {c : Command} {i : Instr} (h : decode c = .ok i) : wireOfItem c = wireOf i := by
  rw [wireOfItem, h]

theorem wireOfProgram_append (p q : List Command) : wireOfProgram (p ++ q) = wireOfProgram p ++ wireOfProgram q :=
  List.flatMap_append

/-- Opcodes go out raw, sentinels among them too. -/
theorem wireOfProgram_map_opc (cs : List Byte) : wireOfProgram (cs.map opc) = cs := by
  have item (c : Byte) : wireOfItem (opc c) = [c] := wireOfItem_of_decode (decode_opc c)
  rw [wireOfProgram, List.flatMap_map, funext item, List.flatMap_singleton']

/-- The bytes of an ESCSEQ go out escaped. -/
theorem wireOfProgram_escSeq (bs : List Byte) : wireOfProgram (escSeq bs) = escapeBytes bs := by
  have item (b : Byte) : wireOfItem (esc b) = enc b := wireOfItem_of_decode (decode_esc b)
  rw [wireOfProgram, escSeq, List.flatMap_map, funext item, escapeBytes]

theorem wireOfProgram_frame (opcodes payload : List Byte) :
    wireOfProgram (frame opcodes payload) = opcodes ++ escapeBytes payload := by
  rw [frame, wireOfProgram_append, wireOfProgram_map_opc, wireOfProgram_escSeq]

/-! ### The bytes of a number -/

@[simp] theorem length_leBytes (n v : Nat) : (leBytes n v).length = n := by
  induction n generalizing v with
  | zero => rfl
  | succ n ih => rw [leBytes, List.length_cons, ih]

/-- `leBytes` writes what `le` reads: the low byte first, and the rest of the number in the rest of the bytes. -/
theorem le_leBytes (n v : Nat) : le (leBytes n v) = v % 2 ^ (8 * n) := by
  induction n generalizing v with
  | zero => exact (Nat.mod_one v).symm
  | succ n ih =>
    calc le (leBytes (n + 1) v) = v % 256 + 256 * (v / 256 % 2 ^ (8 * n)) := by
          rw [leBytes, le, ih, BitVec.toNat_ofNat]
      _ = v % (256 * 2 ^ (8 * n)) := Nat.mod_mul.symm
      _ = v % 2 ^ (8 * (n + 1)) := by rw [Nat.mul_succ, Nat.add_comm, Nat.pow_add]

/-! ### The delay -/

@[simp] theorem length_delayBytes (a d : Nat) : (delayBytes a d).length = a := by
  rw [delayBytes, List.length_reverse, length_leBytes]

theorem le_reverse_delayBytes (a d : Nat) : le (delayBytes a d).reverse = d % 2 ^ (8 * a) := by
  rw [delayBytes, List.reverse_reverse, le_leBytes]

theorem wireOfProgram_delayFrame (a d : Nat) :
    wireOfProgram (delayFrame a d) = [0x0F#8, 0x1F#8] ++ escapeBytes (delayBytes a d) :=
  wireOfProgram_frame _ _

/-- A ratio of at most 100 percent puts the delay among the samples before the last. -/
theorem delayRawOf_le_pred {p : Nat} (hp : p ≤ 100) (l : Nat) : delayRawOf l p ≤ l - 1 :=
  Nat.div_le_of_le_mul (by rw [Nat.mul_comm 100]; exact Nat.mul_le_mul_left (l - 1) hp)

/-- The whole bytes of an address hold all its bits. -/
theorem bits_le_eight_mul_ceil_bytes (aw : Nat) : aw ≤ 8 * ((aw + 7) / 8) := by
  omega

/-- A legal delay is below the sample limit, and so an address, which the frame's bytes hold. -/
theorem delayRawOf_lt_two_pow {l p aw : Nat} (hl : 1 ≤ l) (haw : l ≤ 2 ^ aw) (hp : p ≤ 100) :
    delayRawOf l p < 2 ^ (8 * ((aw + 7) / 8)) := by
  calc delayRawOf l p ≤ l - 1 := delayRawOf_le_pred hp l
    _ < l := Nat.sub_one_lt_of_lt hl
    _ ≤ 2 ^ aw := haw
    _ ≤ 2 ^ (8 * ((aw + 7) / 8)) := Nat.pow_le_pow_right Nat.two_pos (bits_le_eight_mul_ceil_bytes aw)

/-- Settles O48: the bytes are those of `delayBytes`, and a legal delay is below the sample limit. -/
theorem delayFrameCarriesTheDelay : Obligations.DelayFrameCarriesTheDelay := by
  unfold Obligations.DelayFrameCarriesTheDelay
  constructor
  · intro a d
    exact ⟨delayBytes a d, length_delayBytes a d, le_reverse_delayBytes a d, wireOfProgram_delayFrame a d⟩
  · intro l p aw hl haw hp
    exact delayRawOf_lt_two_pow hl haw hp

end Sys2Proof.Machine
end

section
/-! NOP (43_rlc_decoder.md R211): its word decodes up to the check of ARG8, and running it changes nothing. -/

namespace Sys2Proof

/-- A word of HOP 0x00 is decoded up to the check of its ARG8. -/
theorem decode_hcwOf_nop (arg : Byte) (d : Word64) :
    decode (.hcw (hcwOf 0x00#8 arg) d) = needsZeroArg 0x00#8 arg .nop := by
  rw [decode, decodeHcw, hopOf_hcwOf, arg8Of_hcwOf]
  exact if_pos rfl

end Sys2Proof

namespace Sys2Proof.Machine

theorem exec_nop (s : State) : exec .nop s = .next s := rfl

theorem runItem_of_decode_ok {c : Command} {i : Instr} (h : decode c = .ok i) (s : State) : runItem c s = exec i s := by
  rw [runItem, h]

/-- The word of NOP runs NOP, whatever its DATA64. -/
theorem runItem_nop (d : Word64) (s : State) : runItem (.hcw (hcwOf 0x00#8 0x00#8) d) s = .next s := by
  have hdecode := (decode_hcwOf_nop 0x00#8 d).trans (needsZeroArg_of_eq_zero rfl _ _)
  rw [runItem_of_decode_ok hdecode, exec_nop]

/-- A NOP word with a nonzero ARG8 only raises ILLEGAL_CMD. -/
theorem runItem_nop_of_nonzero_arg {a : Byte} (ha : a ≠ 0x00#8) (d : Word64) (s : State) :
    runItem (.hcw (hcwOf 0x00#8 a) d) s = .next { s with status := s.status ||| 0x40#8 } := by
  have hdecode := (decode_hcwOf_nop a d).trans (needsZeroArg_of_ne_zero ha _ _)
  rw [runItem_of_decode_error hdecode, rejectItem_nonzeroArg]

/-- Settles O15: the two words are those of HOP 0x00, told apart by the check of ARG8. -/
theorem nopChangesNothing : Obligations.NopChangesNothing := by
  unfold Obligations.NopChangesNothing
  intro s
  have nop_word : (0x0000#16 : Hcw) = hcwOf 0x00#8 0x00#8 := rfl
  refine ⟨exec_nop s, fun d => ?_, fun a d ha => ?_⟩
  · rw [nop_word]
    exact runItem_nop d s
  · exact runItem_nop_of_nonzero_arg ha d s

end Sys2Proof.Machine
end

section
/-! Configuration writes (43_rlc_decoder.md R212; 60_exceptions.md R265): every address of 0x00 to 0x04 is a configuration
register's, and STATE alone decides whether a write there is locked. -/

namespace Sys2Proof.Machine

/-- An acquisition is active in the three states between ARM and DONE (10_state.md R29). -/
theorem active_iff (s : State) :
    s.active = true ↔ s.state = .accumulating ∨ s.state = .decoding ∨ s.state = .delivering := by
  unfold State.active
  cases s.state <;> simp

/-- The addresses 0x00 to 0x04 leave no gap: each is that of a register a configuration write reaches. -/
theorem exists_config_register {a : Byte} (h : a.toNat ≤ 0x04) :
    ∃ r : Reg, r.addr = a ∧ ∀ v s, ∃ s', writeConfig r v s = some s' := by
  have haddr : a.toNat = 0x00 ∨ a.toNat = 0x01 ∨ a.toNat = 0x02 ∨ a.toNat = 0x03 ∨ a.toNat = 0x04 := by omega
  obtain h | h | h | h | h := haddr
  · exact ⟨.dataWidth, BitVec.eq_of_toNat_eq h.symm, fun _ _ => ⟨_, rfl⟩⟩
  · exact ⟨.addrWidth, BitVec.eq_of_toNat_eq h.symm, fun _ _ => ⟨_, rfl⟩⟩
  · exact ⟨.rlcWidth, BitVec.eq_of_toNat_eq h.symm, fun _ _ => ⟨_, rfl⟩⟩
  · exact ⟨.limitSamples, BitVec.eq_of_toNat_eq h.symm, fun _ _ => ⟨_, rfl⟩⟩
  · exact ⟨.captureRatio, BitVec.eq_of_toNat_eq h.symm, fun _ _ => ⟨_, rfl⟩⟩

/-- A write of a configuration register takes effect unless an acquisition is active, and then raises CFG_LOCKED. -/
theorem writeRegister_addr_of_writeConfig {r : Reg} {v : Word64} {s s' : State} (h : writeConfig r v s = some s') :
    writeRegister r.addr v s = if s.active then takeException .cfgLocked s else s' := by
  have hr : regAt r.addr = some r := regAt_eq_some_iff.mpr rfl
  rw [writeRegister, hr]
  cases r
  case dataWidth | addrWidth | rlcWidth | limitSamples | captureRatio =>
    cases h
    rfl
  all_goals cases h

/-- CFG_LOCKED is not fatal: taking it sets STATUS bit 4 and nothing else. -/
theorem takeException_cfgLocked (s : State) :
    takeException .cfgLocked s = { s with status := s.status ||| 0x10#8 } := rfl

/-- Settles O17: the address is a configuration register's, and in each of the three states an acquisition is active. -/
theorem configWriteIsLockedWhileActive : Obligations.ConfigWriteIsLockedWhileActive := by
  unfold Obligations.ConfigWriteIsLockedWhileActive
  intro a v s ha hstate
  obtain ⟨r, rfl, hconfig⟩ := exists_config_register ha
  obtain ⟨s', hs'⟩ := hconfig v s
  rw [exec_writeReg, writeRegister_addr_of_writeConfig hs', if_pos ((active_iff s).mpr hstate), takeException_cfgLocked]

end Sys2Proof.Machine
end

section
/-! Decoding and encoding undo each other (30_encoding.md R90, R91, R95): a word is made of its two fields, and a wire
opcode stands in one row of the table. -/

namespace Sys2Proof

/-! ### Decode of encode -/

/-- The host operation map, for a word built from its fields (R91, R93). -/
theorem decode_hcwOf (hop arg : Byte) (d : Word64) :
    decode (.hcw (hcwOf hop arg) d) =
      if hop = 0x00#8 then needsZeroArg hop arg .nop
      else if hop = 0x01#8 then .ok (.sendOpcode arg)
      else if hop = 0x02#8 then .ok (.sendEscaped arg)
      else if hop = 0x10#8 then needsZeroArg hop arg .arm
      else if hop = 0x11#8 then needsZeroArg hop arg .abort
      else if hop = 0x20#8 then .ok (.writeReg arg d)
      else if hop = 0x21#8 then .ok (.readReg arg)
      else .error (.reservedHop hop) := by
  rw [decode, decodeHcw, hopOf_hcwOf, arg8Of_hcwOf]

theorem decode_encode (i : Instr) : decode (encode i) = .ok i := by
  cases i with
  | sendOpcode c => exact decode_hcwOf 0x01#8 c 0#64
  | sendEscaped b => exact decode_hcwOf 0x02#8 b 0#64
  | writeReg a v => exact decode_hcwOf 0x20#8 a v
  | readReg a => exact decode_hcwOf 0x21#8 a 0#64
  | _ => rfl

/-- Settles O1: the two fields of the encoded word are the HOP and the operand, and each wire opcode has its own row. -/
theorem decodeOfEncodeIsTheInstruction : Obligations.DecodeOfEncodeIsTheInstruction := by
  unfold Obligations.DecodeOfEncodeIsTheInstruction
  intro i _
  exact decode_encode i

/-! ### Encode of decode -/

/-- A word is made of its two fields (R90). -/
theorem hcwOf_hopOf_arg8Of (w : Hcw) : hcwOf (hopOf w) (arg8Of w) = w := by
  apply BitVec.eq_of_toNat_eq
  rw [hcwOf, BitVec.toNat_append, ← Nat.shiftLeft_add_eq_or_of_lt (arg8Of w).isLt, Nat.shiftLeft_eq, hopOf_toNat,
    arg8Of_toNat]
  omega

/-- An operation that needs ARG8 to be 0x00 and decodes has it. -/
theorem needsZeroArg_eq_ok {hop arg : Byte} {i j : Instr} (h : needsZeroArg hop arg i = .ok j) :
    arg = 0x00#8 ∧ j = i := by
  by_cases harg : arg = 0x00#8
  · rw [needsZeroArg_of_eq_zero harg] at h
    exact ⟨harg, (Except.ok.inj h).symm⟩
  · rw [needsZeroArg_of_ne_zero harg] at h
    cases h

/-- What a word built from its fields decodes to is encoded as that word, and only WRITE_REG has the data operand for
its own. -/
theorem encode_of_decode_hcwOf {hop arg : Byte} {d : Word64} {i : Instr}
    (h : decode (.hcw (hcwOf hop arg) d) = .ok i) :
    ∃ d', encode i = .hcw (hcwOf hop arg) d' ∧ (d' = d ∨ ∀ a v, i ≠ .writeReg a v) := by
  have noData {j : Instr} (henc : encode j = .hcw (hcwOf hop arg) 0#64) (hj : ∀ a v, j ≠ .writeReg a v) :
      ∃ d', encode j = .hcw (hcwOf hop arg) d' ∧ (d' = d ∨ ∀ a v, j ≠ .writeReg a v) := ⟨0#64, henc, .inr hj⟩
  rw [decode_hcwOf] at h
  split_ifs at h with hnop hopc hesc harm habort hwrite hread <;> subst hop
  · obtain ⟨rfl, rfl⟩ := needsZeroArg_eq_ok h
    exact noData rfl (by simp)
  · cases h
    exact noData rfl (by simp)
  · cases h
    exact noData rfl (by simp)
  · obtain ⟨rfl, rfl⟩ := needsZeroArg_eq_ok h
    exact noData rfl (by simp)
  · obtain ⟨rfl, rfl⟩ := needsZeroArg_eq_ok h
    exact noData rfl (by simp)
  · cases h
    exact ⟨d, rfl, .inl rfl⟩
  · cases h
    exact noData rfl (by simp)

/-- Every row of the wire table is the encoding of its instruction. -/
theorem encode_of_mem_wireTable : ∀ row ∈ wireTable, encode row.2 = .wire row.1 := by
  decide

/-- A wire byte that decodes has a row in the table. -/
theorem mem_wireTable_of_decodeWire {b : Byte} {i : Instr} (h : decodeWire b = .ok i) : (b, i) ∈ wireTable := by
  unfold decodeWire at h
  split at h
  · rename_i row hrow
    have hbeq := List.find?_some hrow
    rw [← eq_of_beq hbeq, ← Except.ok.inj h]
    exact List.mem_of_find?_eq_some hrow
  · cases h

/-- Settles O2: a word is split into its fields and read in the map, a wire byte is looked up in the table. -/
theorem encodeOfDecodeIsTheItemUpToIgnoredData : Obligations.EncodeOfDecodeIsTheItemUpToIgnoredData := by
  unfold Obligations.EncodeOfDecodeIsTheItemUpToIgnoredData
  constructor
  · intro w d i h
    rw [← hcwOf_hopOf_arg8Of w] at h ⊢
    exact encode_of_decode_hcwOf h
  · intro b i h
    exact encode_of_mem_wireTable (b, i) (mem_wireTable_of_decodeWire h)

/-- Settles O4: each literal is the word or byte `encode` gives for the instruction (NOP with a data operand that it
ignores). -/
theorem writtenOutWordsDecode : Obligations.WrittenOutWordsDecode := by
  unfold Obligations.WrittenOutWordsDecode
  exact ⟨decode_hcwOf_nop 0x00#8 7#64, decode_encode (.sendOpcode 0xBB#8), decode_encode (.sendEscaped 0xEE#8),
    decode_encode .arm, decode_encode .abort, decode_encode (.writeReg 0x01#8 10#64), decode_encode (.readReg 0x19#8),
    decode_encode .reset, decode_encode .start, decode_encode .triggerMaskLastSel⟩

end Sys2Proof

namespace Sys2Proof.Machine

/-! ### The step that issues an item -/

theorem nextTurn_of_schedule {s : State} {turn : Turn} {ts : List Turn} (h : s.schedule = turn :: ts) :
    nextTurn s = turn := by
  rw [nextTurn, h]

theorem afterTurn_of_schedule {s : State} {turn : Turn} {ts : List Turn} (h : s.schedule = turn :: ts) :
    afterTurn s = { s with schedule := ts } := by
  rw [afterTurn, h]

/-- The HOST's turn issues the item at the front of the port. -/
theorem takeTurn_hostOp_of_port {s : State} {c : Command} {cs : List Command} (h : s.port = c :: cs) :
    takeTurn .hostOp s = runItem c { s with port := cs } := by
  simp only [takeTurn, h]

/-- A step with a listed turn of the HOST issues the item at the front of the port. -/
theorem step_of_hostOp {s : State} {ts : List Turn} {c : Command} {cs : List Command}
    (hschedule : s.schedule = .hostOp :: ts) (hport : s.port = c :: cs) :
    step s = runItem c { s with schedule := ts, port := cs } := by
  rw [step, nextTurn_of_schedule hschedule, afterTurn_of_schedule hschedule]
  exact takeTurn_hostOp_of_port hport

/-- A table word that decodes is the port item with those bits. -/
theorem decode_commandOfBits {nbits w : Nat} {i : Instr} (h : decodeTableWord nbits w = some i) :
    decode (commandOfBits nbits w) = .ok i := by
  unfold decodeTableWord at h
  split at h
  · cases hd : decode (commandOfBits nbits w) with
    | error e => rw [hd] at h; cases h
    | ok j => rw [hd] at h; cases h; rfl
  · cases h

/-- Settles O5: the listed turn is the HOST's, and `withFetchWord` lists one turn and one item before the state's own.
-/
theorem stepRunsTheDecodedInstruction : Obligations.StepRunsTheDecodedInstruction := by
  unfold Obligations.StepRunsTheDecodedInstruction
  constructor
  · intro s ts c cs i hschedule hport hdecode
    rw [step_of_hostOp hschedule hport, runItem_of_decode_ok hdecode]
  · intro s nbits w i h
    calc step (s.withFetchWord nbits w)
        = runItem (commandOfBits nbits w) { s.withFetchWord nbits w with schedule := s.schedule, port := s.port } :=
          step_of_hostOp rfl rfl
      _ = exec i s := runItem_of_decode_ok (decode_commandOfBits h) s

end Sys2Proof.Machine
end

section
/-! What each instruction can change at most, said once for each meaning that `exec` calls: the fields written out are
the ones that may differ (10_state.md R41 to R46). -/

namespace Sys2Proof.Machine

/-- Every instruction completes. -/
theorem exists_exec_eq_next (i : Instr) (s : State) : ∃ t, exec i s = .next t := by
  cases i <;> exact ⟨_, rfl⟩

theorem txWrite_frame (b : Byte) (s : State) :
    ∃ w e, txWrite b s =
      { s with tx := s.tx ++ w, status := s.status ||| e, answers := s.answers.tail, draws := s.draws + 1 } := by
  obtain ⟨-, h⟩ | ⟨-, h⟩ := txWrite_cases b s <;> rw [h]
  · exact ⟨[b], 0#8, by rw [BitVec.or_zero]; rfl⟩
  · exact ⟨[], 1#8, by rw [List.append_nil]; rfl⟩

theorem sendPayload_frame (b : Byte) (s : State) :
    ∃ w e answers draws, sendPayload b s =
      { s with tx := s.tx ++ w, status := s.status ||| e, answers := answers, draws := draws } := by
  rw [sendPayload_eq]
  split
  · obtain ⟨w, e, h⟩ := txWrite_frame 0x55#8 s
    obtain ⟨w', e', h'⟩ := txWrite_frame b (txWrite 0x55#8 s)
    rw [h', h]
    exact ⟨w ++ w', e ||| e', _, _, by rw [List.append_assoc, BitVec.or_assoc]⟩
  · obtain ⟨w, e, h⟩ := txWrite_frame b s
    exact ⟨w, e, _, _, h⟩

theorem writeRegister_frame (a : Byte) (v : Word64) (s : State) :
    ∃ dataWidth addrWidth rlcWidth limitSamples captureRatio status, writeRegister a v s =
      { s with dataWidth := dataWidth, addrWidth := addrWidth, rlcWidth := rlcWidth, limitSamples := limitSamples,
               captureRatio := captureRatio, status := status } := by
  obtain ⟨-, h⟩ | ⟨r, s', -, -, -, h⟩ | ⟨r, s', -, hw, -, h⟩ | h := writeRegister_cases a v s
  · exact ⟨_, _, _, _, _, _, h⟩
  · exact ⟨_, _, _, _, _, _, h⟩
  · rw [h]
    obtain rfl | rfl | rfl | rfl | rfl := writeConfig_cases hw <;> exact ⟨_, _, _, _, _, _, rfl⟩
  · exact ⟨_, _, _, _, _, _, h⟩

theorem readRegister_frame (a : Byte) (s : State) :
    ∃ rdata64 e, readRegister a s = { s with rdata64 := rdata64, status := s.status ||| e } := by
  obtain ⟨r, -, h⟩ | ⟨-, h⟩ := readRegister_cases a s
  · exact ⟨readReg r s, 0#8, by rw [h, BitVec.or_zero]⟩
  · exact ⟨0#64, 0x20#8, h⟩

theorem abortEffect_frame (s : State) :
    ∃ state e rxEn rawbuf rpt outbuf evs epoch, abortEffect s =
      { s with state := state, status := s.status ||| e, rxEn := rxEn, rawbuf := rawbuf, rpt := rpt, outbuf := outbuf,
               sink := s.sink ++ evs, epoch := epoch } := by
  obtain ⟨-, h⟩ | ⟨-, h⟩ := abortEffect_cases s <;> rw [h]
  · exact ⟨.done, 0x08#8, false, [], [], [], [.endOfAcquisition], s.epoch + 1, rfl⟩
  · exact ⟨s.state, 0x40#8, s.rxEn, s.rawbuf, s.rpt, s.outbuf, [], s.epoch, by rw [List.append_nil]; rfl⟩

theorem armEffect_frame (s : State) :
    ∃ state e transferredBytes totalSamples delayRaw delayValue rxEn rawbuf rpt outbuf outSrc evs epoch,
      armEffect s =
        { s with state := state, status := s.status ||| e, transferredBytes := transferredBytes,
                 totalSamples := totalSamples, delayRaw := delayRaw, delayValue := delayValue, rxEn := rxEn,
                 rawbuf := rawbuf, rpt := rpt, outbuf := outbuf, outSrc := outSrc, sink := s.sink ++ evs,
                 epoch := epoch } := by
  obtain ⟨-, h⟩ | ⟨-, -, h⟩ | ⟨-, -, -, h⟩ | ⟨-, -, -, h⟩ := armEffect_cases s <;> rw [h]
  · exact ⟨_, 0x40#8, _, _, _, _, _, _, _, _, _, [], _, by rw [List.append_nil]; rfl⟩
  · exact ⟨_, 0x80#8, _, _, _, _, _, _, _, _, _, [], _, by rw [List.append_nil]; rfl⟩
  · exact ⟨_, 0x04#8, _, _, _, _, _, _, _, _, _, [.endOfAcquisition], _, rfl⟩
  · exact ⟨_, 0#8, _, _, _, _, _, _, _, _, _, [], _, by rw [List.append_nil, BitVec.or_zero]; rfl⟩

end Sys2Proof.Machine
end

section
/-! The framer and the wire (40_escape_codec.md R122, R123, R128; 41_command_frames.md R140 to R162): what one write
does with either answer, what a program puts on the wire while every write answers ok, and what a receiver reads of
it. -/

namespace Sys2Proof.Machine

/-! ### One write, with either answer -/

/-- A write that answers ok adds its byte, and one that fails sets TX_FAIL. -/
theorem txWrite_eq (b : Byte) (s : State) :
    txWrite b s =
      if txAnswer s = true then { s with tx := s.tx ++ [b], answers := s.answers.tail, draws := s.draws + 1 }
      else { s with status := s.status ||| 0x01#8, answers := s.answers.tail, draws := s.draws + 1 } := rfl

theorem exec_sendOpcode (c : Byte) (s : State) : exec (.sendOpcode c) s = .next (txWrite c s) := rfl

/-- Settles O8: SEND_OPCODE is one write. -/
theorem sendOpcodeSendsTheByteRaw : Obligations.SendOpcodeSendsTheByteRaw := by
  unfold Obligations.SendOpcodeSendsTheByteRaw
  intro c s
  refine ⟨decode_encode (.sendOpcode c), ?_⟩
  rw [exec_sendOpcode, txWrite_eq]

/-- Two writes, each answered on its own: the second answer is the next one, whatever the first was. -/
theorem txWrite_txWrite_eq (b c : Byte) (s : State) :
    let r1 := txAnswer s
    let r2 := txAnswer { s with answers := s.answers.tail, draws := s.draws + 1 }
    txWrite c (txWrite b s) =
      { s with
        tx := s.tx ++ (if r1 = true then [b] else []) ++ (if r2 = true then [c] else [])
        status := if r1 = true ∧ r2 = true then s.status else s.status ||| 0x01#8
        answers := s.answers.tail.tail
        draws := s.draws + 2 } := by
  intro r1 r2
  have second : txAnswer (txWrite b s) = r2 := by
    obtain ⟨w, e, h⟩ := txWrite_frame b s
    rw [h]
    rfl
  rw [txWrite_eq c, second, txWrite_eq b]
  cases h1 : txAnswer s <;> cases h2 : r2 <;> simp [r1, h1, BitVec.or_assoc]

/-- Settles O9: a sentinel is two writes, the escape code and itself, and any other byte is one. -/
theorem sendEscapedSendsThroughTheEscapeRule : Obligations.SendEscapedSendsThroughTheEscapeRule := by
  unfold Obligations.SendEscapedSendsThroughTheEscapeRule
  intro b s
  refine ⟨decode_encode (.sendEscaped b), ?_, fun hb => ?_⟩
  · intro hb r1 r2
    rw [exec_sendEscaped, sendPayload_eq, if_pos hb, txWrite_txWrite_eq]
  · rw [exec_sendEscaped, sendPayload_eq, if_neg (not_or.mpr hb), txWrite_eq]

/-- Settles O10: each row of the table is one write of its byte. -/
theorem wireOpcodesSendTheirByteRaw : Obligations.WireOpcodesSendTheirByteRaw := by
  unfold Obligations.WireOpcodesSendTheirByteRaw
  intro row hrow s
  have oneWrite : exec row.1 s = .next (txWrite row.2 s) := by
    fin_cases hrow <;> rfl
  rw [oneWrite, txWrite_eq]

/-! ### Programs whose writes all answer ok -/

/-- From `s` to `t` exactly `w` has been put on the TX stream, every write answered ok, and the port is as it was. -/
structure State.Sends (w : List Byte) (s t : State) : Prop where
  tx : t.tx = s.tx ++ w
  answers : t.answers = s.answers.drop w.length
  port : t.port = s.port

theorem sends_afterWrites (w : List Byte) (s : State) : State.Sends w s (s.afterWrites w) := ⟨rfl, rfl, rfl⟩

theorem State.Sends.trans {v w : List Byte} {s t u : State} (h : State.Sends v s t) (h' : State.Sends w t u) :
    State.Sends (v ++ w) s u where
  tx := by rw [h'.tx, h.tx, List.append_assoc]
  answers := by rw [h'.answers, h.answers, List.drop_drop, List.length_append]
  port := h'.port.trans h.port

/-- Whether writes are answered ok is a matter of the answers listed. -/
theorem writesOk_of_answers_eq {n : Nat} {s t : State} (h : t.answers = s.answers) (hs : s.writesOk n) :
    t.writesOk n := by
  unfold State.writesOk at hs ⊢
  rwa [h]

/-- Once the first piece has been sent, the writes of the second are the next ones. -/
theorem State.Sends.writesOk {v w : List Byte} {s t : State} (h : State.Sends v s t)
    (hok : s.writesOk (v ++ w).length) : t.writesOk w.length :=
  writesOk_of_answers_eq h.answers (writesOk_append hok).2

/-- An instruction whose writes answer ok puts its wire bytes on the TX stream. -/
theorem exec_sends {i : Instr} {s : State} (h : s.writesOk (wireOf i).length) :
    ∃ t, exec i s = .next t ∧ State.Sends (wireOf i) s t := by
  obtain ⟨t, ht⟩ := exists_exec_eq_next i s
  refine ⟨t, ht, ?_⟩
  obtain ⟨rfl, rfl⟩ | ⟨c, hwire, rfl⟩ | ⟨b, rfl, rfl⟩ | ⟨rfl, rfl⟩ | ⟨rfl, rfl⟩ | ⟨a, v, rfl, rfl⟩ | ⟨a, rfl, rfl⟩ :=
    exec_cases ht
  · exact ⟨by simp [wireOf], rfl, rfl⟩
  · rw [hwire] at h ⊢
    rw [sendRaw, txWrite_of_writesOk h]
    exact sends_afterWrites [c] s
  · rw [sendPayload_of_writesOk h]
    exact sends_afterWrites (enc b) s
  · obtain ⟨_, _, _, _, _, _, _, _, _, _, _, _, _, heq⟩ := armEffect_frame s
    rw [heq]
    exact ⟨by simp [wireOf], rfl, rfl⟩
  · obtain ⟨_, _, _, _, _, _, _, _, heq⟩ := abortEffect_frame s
    rw [heq]
    exact ⟨by simp [wireOf], rfl, rfl⟩
  · obtain ⟨_, _, _, _, _, _, heq⟩ := writeRegister_frame a v s
    rw [heq]
    exact ⟨by simp [wireOf], rfl, rfl⟩
  · obtain ⟨_, _, heq⟩ := readRegister_frame a s
    rw [heq]
    exact ⟨by simp [wireOf], rfl, rfl⟩

/-- Instructions, one after the other, whose writes answer ok put their wire bytes on the TX stream. -/
theorem execAll_sends {is : List Instr} {s : State} (h : s.writesOk (is.flatMap wireOf).length) :
    ∃ t, execAll is s = .next t ∧ State.Sends (is.flatMap wireOf) s t := by
  induction is generalizing s with
  | nil => exact ⟨s, rfl, by simp, rfl, rfl⟩
  | cons i is ih =>
    rw [List.flatMap_cons] at h ⊢
    obtain ⟨t, hexec, hsends⟩ := exec_sends (writesOk_append h).1
    obtain ⟨u, hall, hrest⟩ := ih (hsends.writesOk h)
    exact ⟨u, (execAll_cons_of_next hexec is).trans hall, hsends.trans hrest⟩

/-- An item whose writes answer ok puts its wire bytes on the TX stream, whether it is an instruction or not. -/
theorem runItem_sends {c : Command} {s : State} (h : s.writesOk (wireOfItem c).length) :
    ∃ t, runItem c s = .next t ∧ State.Sends (wireOfItem c) s t := by
  cases hdecode : decode c with
  | ok i =>
    rw [wireOfItem_of_decode hdecode] at h ⊢
    rw [runItem_of_decode_ok hdecode]
    exact exec_sends h
  | error e =>
    rw [wireOfItem, hdecode] at h ⊢
    rw [runItem_of_decode_error hdecode]
    cases e with
    | reservedHop hop => exact ⟨_, rejectItem_reservedHop hop s, by simp, rfl, rfl⟩
    | nonzeroArg hop arg => exact ⟨_, rejectItem_nonzeroArg hop arg s, by simp, rfl, rfl⟩
    | unlistedOpcode b =>
      refine ⟨_, rfl, ?_⟩
      rw [sendRaw, txWrite_of_writesOk h]
      exact sends_afterWrites [b] s

/-- The HOST's turns issue a program at the front of the port, item by item. -/
theorem takeTurns_hostOp_sends {p rest : List Command} {s : State} (hport : s.port = p ++ rest)
    (h : s.writesOk (wireOfProgram p).length) :
    ∃ t, takeTurns (List.replicate p.length .hostOp) s = .next t ∧ t.tx = s.tx ++ wireOfProgram p ∧ t.port = rest := by
  induction p generalizing s with
  | nil => exact ⟨s, rfl, by simp [wireOfProgram], hport⟩
  | cons c p ih =>
    have hcons : wireOfProgram (c :: p) = wireOfItem c ++ wireOfProgram p := rfl
    rw [hcons] at h ⊢
    obtain ⟨t, hrun, hsends⟩ := runItem_sends (s := { s with port := p ++ rest }) (writesOk_append h).1
    obtain ⟨u, hturns, htx, hrest⟩ := ih hsends.port (hsends.writesOk h)
    have hissue : takeTurn .hostOp s = .next t := (takeTurn_hostOp_of_port hport).trans hrun
    refine ⟨u, ?_, by rw [htx, hsends.tx, List.append_assoc], hrest⟩
    rw [List.length_cons, List.replicate_succ, takeTurns, hissue]
    exact hturns

/-- Settles O13: each turn issues one item, which puts its own wire bytes on the stream. -/
theorem runningAProgramPutsItsWireBytesOnTheTxStream : Obligations.RunningAProgramPutsItsWireBytesOnTheTxStream := by
  unfold Obligations.RunningAProgramPutsItsWireBytesOnTheTxStream
  intro p rest s hport h
  exact takeTurns_hostOp_sends hport h

/-! ### What a receiver reads -/

/-- Outside a pair a byte other than the escape code is read as an opcode's token. -/
theorem unesc_cons_of_ne_escape {c : Byte} (h : c ≠ 0x55#8) (w : List Byte) :
    unesc (c :: w) = opcodeToken c :: unesc w := by
  have hescape : c ≠ escapeCode := h
  rw [unesc, unescFrom, if_neg hescape, opcodeToken]
  split <;> rfl

/-- What an instruction other than a bare escape sends is read as its own tokens, and the receiver is in mode NORMAL
again. -/
theorem unesc_wireOf_append {i : Instr} (h : sendsNoBareEscape i = true) (w : List Byte) :
    unesc (wireOf i ++ w) = tokensOf i ++ unesc w := by
  cases i with
  | sendEscaped b => exact unesc_enc_append b w
  | sendOpcode c =>
    have hc : c ≠ 0x55#8 := by
      rintro rfl
      cases h
    exact unesc_cons_of_ne_escape hc w
  | escape => cases h
  | _ => rfl

theorem unesc_flatMap_wireOf {is : List Instr} (h : ∀ i ∈ is, sendsNoBareEscape i = true) :
    unesc (is.flatMap wireOf) = is.flatMap tokensOf := by
  induction is with
  | nil => rfl
  | cons i is ih =>
    rw [List.flatMap_cons, List.flatMap_cons, unesc_wireOf_append (h i List.mem_cons_self),
      ih fun j hj => h j (List.mem_cons_of_mem i hj)]

/-- Settles O12: what is sent is the instructions' wire bytes, and each instruction's are read as its own tokens. -/
theorem opcodesAreProtectedFromPayload : Obligations.OpcodesAreProtectedFromPayload := by
  unfold Obligations.OpcodesAreProtectedFromPayload
  intro is s hescape hok
  obtain ⟨t, hexec, hsends⟩ := execAll_sends hok
  exact ⟨t, is.flatMap wireOf, hexec, hsends.tx, unesc_flatMap_wireOf hescape⟩

/-! ### The frames of an acquisition start -/

theorem wireOfProgram_trigVec (g sel : Byte) (v : List Byte) :
    wireOfProgram (trigVec g sel v) = [0xF0#8, g, sel] ++ escapeBytes v.reverse :=
  wireOfProgram_frame _ _

/-- Settles O49: the five frames' wire bytes, one after the other. -/
theorem triggerFramesGoOutInOrder : Obligations.TriggerFramesGoOutInOrder := by
  unfold Obligations.TriggerFramesGoOutInOrder
  intro v
  simp only [triggerFrames, wireOfProgram_append, wireOfProgram_trigVec]

theorem wireOfProgram_startSequence (v : TriggerVectors) (a delay : Nat) :
    wireOfProgram (startSequence v a delay) =
      wireOfProgram (triggerFrames v) ++ wireOfProgram (delayFrame a delay) ++ [0xFE#8] := by
  rw [startSequence, wireOfProgram_append, wireOfProgram_append]
  congr 1

/-! ### The device at frame boundaries (41_command_frames.md R165) -/

/-- The last `bs.length` bytes of a payload complete its frame. -/
theorem scanTokens_payload (d a : Nat) (os got : List Byte) {bs : List Byte} (hne : bs ≠ []) (ts : List Token) :
    scanTokens d a (.payload os got bs.length) (bs.map .data ++ ts) =
      (⟨os, got ++ bs⟩ :: (scanTokens d a .frameStart ts).1, (scanTokens d a .frameStart ts).2) := by
  induction bs generalizing got with
  | nil => exact absurd rfl hne
  | cons b bs ih =>
    cases bs with
    | nil => simp [scanTokens, scanToken]
    | cons c cs =>
      have hrest := ih (got ++ [b]) (by simp)
      simp only [List.length_cons, List.map_cons, List.cons_append] at hrest ⊢
      rw [scanTokens, scanToken, if_neg (by omega), Nat.add_sub_cancel, hrest]
      simp

/-- A frame whose opcodes are known is completed by the payload bytes it waits for, none included. -/
theorem scanTokens_openFrame (d a : Nat) (os bs : List Byte) (ts : List Token) :
    ((openFrame os bs.length).1 ++ (scanTokens d a (openFrame os bs.length).2 (bs.map .data ++ ts)).1,
      (scanTokens d a (openFrame os bs.length).2 (bs.map .data ++ ts)).2) =
      (⟨os, bs⟩ :: (scanTokens d a .frameStart ts).1, (scanTokens d a .frameStart ts).2) := by
  cases bs with
  | nil => simp [openFrame]
  | cons b bs =>
    have hopen : openFrame os (b :: bs).length = ([], .payload os [] (b :: bs).length) := if_neg (by simp)
    rw [hopen, scanTokens_payload d a os [] (List.cons_ne_nil b bs) ts]
    simp

/-- From a frame boundary on, the device reads `w` as exactly `fs` and stands at a frame boundary after it. -/
def ReadsAs (d a : Nat) (w : List Byte) (fs : List DeviceFrame) : Prop :=
  ∀ rest, deviceFrames d a (w ++ rest) = (fs ++ (deviceFrames d a rest).1, (deviceFrames d a rest).2)

theorem ReadsAs.append {d a : Nat} {v w : List Byte} {fs gs : List DeviceFrame} (hv : ReadsAs d a v fs)
    (hw : ReadsAs d a w gs) : ReadsAs d a (v ++ w) (fs ++ gs) := by
  intro rest
  rw [List.append_assoc, hv, hw, List.append_assoc]

theorem ReadsAs.deviceFrames_eq {d a : Nat} {w : List Byte} {fs : List DeviceFrame} (h : ReadsAs d a w fs) :
    deviceFrames d a w = (fs, .frameStart) := by
  have hw := h []
  rwa [List.append_nil, show deviceFrames d a [] = ([], .frameStart) from rfl, List.append_nil] at hw

/-- A trigger frame whose selectors are no sentinels is read with its payload. -/
theorem readsAs_triggerFrame {d : Nat} (a : Nat) {g sel : Byte} {v : List Byte} (hv : v.length = d)
    (hg : ¬ isSentinel g = true) (hsel : ¬ isSentinel sel = true) :
    ReadsAs d a ([0xF0#8, g, sel] ++ escapeBytes v.reverse) [⟨[0xF0#8, g, sel], v.reverse⟩] := by
  intro rest
  have tokens : unesc ([0xF0#8, g, sel] ++ escapeBytes v.reverse ++ rest) =
      .data 0xF0#8 :: .data g :: .data sel :: (v.reverse.map .data ++ unesc rest) := by
    simp only [List.cons_append, List.nil_append]
    rw [unesc_cons_of_not_isSentinel (by decide), unesc_cons_of_not_isSentinel hg, unesc_cons_of_not_isSentinel hsel,
      unesc_escapeBytes_append]
  have hlen : d = v.reverse.length := by rw [List.length_reverse, hv]
  rw [deviceFrames, tokens]
  simp only [scanTokens, scanToken, if_pos, List.nil_append, List.singleton_append]
  rw [hlen]
  exact scanTokens_openFrame _ a _ v.reverse (unesc rest)

/-- The delay frame is read with its payload. -/
theorem readsAs_delayFrame (d a delay : Nat) :
    ReadsAs d a ([0x0F#8, 0x1F#8] ++ escapeBytes (delayBytes a delay)) [⟨[0x0F#8, 0x1F#8], delayBytes a delay⟩] := by
  intro rest
  have tokens : unesc ([0x0F#8, 0x1F#8] ++ escapeBytes (delayBytes a delay) ++ rest) =
      .data 0x0F#8 :: .data 0x1F#8 :: ((delayBytes a delay).map .data ++ unesc rest) := by
    simp only [List.cons_append, List.nil_append]
    rw [unesc_cons_of_not_isSentinel (by decide), unesc_cons_of_not_isSentinel (by decide), unesc_escapeBytes_append]
  have hlen : a = (delayBytes a delay).length := by rw [length_delayBytes]
  have hopen : scanToken d a .delaySub (.data 0x1F#8) = openFrame [0x0F#8, 0x1F#8] (delayBytes a delay).length := by
    rw [← hlen]
    rfl
  have hstart : scanToken d a .frameStart (.data 0x0F#8) = ([], .delaySub) := rfl
  rw [deviceFrames, tokens]
  simp only [scanTokens, hstart, hopen, List.nil_append, List.singleton_append]
  exact scanTokens_openFrame d a _ (delayBytes a delay) (unesc rest)

/-- The start opcode is a frame of its own. -/
theorem readsAs_start (d a : Nat) : ReadsAs d a [0xFE#8] [⟨[0xFE#8], []⟩] := fun _ => rfl

/-- Settles O50: the wire is the seven frames' bytes, and each frame is read from a boundary to a boundary. -/
theorem deviceReadsTheStartSequence : Obligations.DeviceReadsTheStartSequence := by
  unfold Obligations.DeviceReadsTheStartSequence
  intro v d a delay hmask hvalue hmaskLast hvalueLast hedge
  rw [wireOfProgram_startSequence, triggerFramesGoOutInOrder v, wireOfProgram_delayFrame]
  have mask := readsAs_triggerFrame a hmask (g := 0xF1#8) (sel := 0xF3#8) (by decide) (by decide)
  have value := readsAs_triggerFrame a hvalue (g := 0xF1#8) (sel := 0xF7#8) (by decide) (by decide)
  have maskLast := readsAs_triggerFrame a hmaskLast (g := 0xF9#8) (sel := 0xFB#8) (by decide) (by decide)
  have valueLast := readsAs_triggerFrame a hvalueLast (g := 0xF9#8) (sel := 0xFF#8) (by decide) (by decide)
  have edge := readsAs_triggerFrame a hedge (g := 0xF5#8) (sel := 0xF6#8) (by decide) (by decide)
  exact ((((((mask.append value).append maskLast).append valueLast).append edge).append
    (readsAs_delayFrame d a delay)).append (readsAs_start d a)).deviceFrames_eq

end Sys2Proof.Machine
end

section
/-! Reads and unlocked writes of the register file (10_state.md R23 to R39; 43_rlc_decoder.md R212, R213): each
register's value is a number, which READ_REG returns mod 2^64. -/

namespace Sys2Proof.Machine

/-! ### Writes -/

/-- A configuration write takes effect while no acquisition is active. -/
theorem exec_writeReg_of_not_active {r : Reg} {v : Word64} {s s' : State} (hactive : ¬ s.active = true)
    (h : writeConfig r v s = some s') : exec (.writeReg r.addr v) s = .next s' := by
  rw [exec_writeReg, writeRegister_addr_of_writeConfig h, if_neg hactive]

/-- No acquisition is active in IDLE and DONE. -/
theorem not_active_iff (s : State) : ¬ s.active = true ↔ s.state = .idle ∨ s.state = .done := by
  rw [active_iff]
  cases s.state <;> simp

/-- Settles O16: no acquisition is active, so each write takes effect, and truncation is `mod 2^width`. -/
theorem configWriteTakesEffectWhenIdle : Obligations.ConfigWriteTakesEffectWhenIdle := by
  unfold Obligations.ConfigWriteTakesEffectWhenIdle
  intro v s hstate
  have write {r : Reg} {s' : State} (h : writeConfig r v s = some s') : exec (.writeReg r.addr v) s = .next s' :=
    exec_writeReg_of_not_active ((not_active_iff s).mpr hstate) h
  simp only [BitVec.ofNat_toNat]
  refine ⟨write (r := .dataWidth) rfl, ?_, write (r := .rlcWidth) rfl, write (r := .limitSamples) rfl,
    write (r := .captureRatio) rfl⟩
  rw [← BitVec.toNat_setWidth, ← twoPowMod64_eq]
  exact write (r := .addrWidth) rfl

/-- A write of STATUS is never locked (10_state.md R30). -/
theorem exec_writeReg_status (v : Word64) (s : State) : exec (.writeReg 0x11#8 v) s = .next (clearStatus v s) := rfl

/-- Settles O18: `AND NOT`, bit by bit. -/
theorem statusWriteClearsExactlyTheOnes : Obligations.StatusWriteClearsExactlyTheOnes := by
  unfold Obligations.StatusWriteClearsExactlyTheOnes
  intro v s
  refine ⟨clearStatus v s, exec_writeReg_status v s, fun k hk => ?_, rfl⟩
  rw [clearStatus_status, BitVec.getLsbD_and, BitVec.getLsbD_not, BitVec.getLsbD_setWidth]
  simp [hk]

/-! ### Reads -/

/-- The value of a register as a number, before `mod 2^64` (10_state.md R23, R35 to R39). -/
def State.regValue (r : Reg) (s : State) : Nat :=
  match r with
  | .dataWidth => s.dw
  | .addrWidth => s.aw
  | .rlcWidth => s.cw
  | .limitSamples => s.limit
  | .captureRatio => s.captureRatio.toNat
  | .state => (stateCode s.state).toNat
  | .status => s.status.toNat
  | .transferredBytes => s.transferredBytes
  | .totalSamples => s.totalSamples
  | .delayRaw => s.delayRaw
  | .delayValue => s.delayValue
  | .dataWidthBytes => s.dataWidthBytes
  | .addrWidthBytes => s.addrWidthBytes
  | .rawDataWidthBytes => s.rawDataWidthBytes
  | .limitSamplesMax => s.limitSamplesMax
  | .budgetBytes => s.budgetBytes
  | .rxEn => if s.rxEn = true then 1 else 0

/-- What READ_REG returns is the register's value mod 2^64. -/
theorem readReg_eq_ofNat (r : Reg) (s : State) : readReg r s = BitVec.ofNat 64 (s.regValue r) := by
  cases r
  case dataWidth | addrWidth | rlcWidth | captureRatio | state | status => exact (BitVec.ofNat_toNat 64 _).symm
  case limitSamples => exact ((BitVec.ofNat_toNat 64 _).trans (BitVec.setWidth_eq _)).symm
  case limitSamplesMax => exact twoPowMod64_eq s.aw
  case rxEn =>
    unfold readReg State.regValue
    cases s.rxEn <;> rfl
  all_goals rfl

/-- READ_REG at the address of a register. -/
theorem exec_readReg_addr {r : Reg} {s : State} {n : Nat} (h : s.regValue r = n) :
    exec (.readReg r.addr) s = .next { s with rdata64 := BitVec.ofNat 64 n } := by
  have hr : regAt r.addr = some r := regAt_eq_some_iff.mpr rfl
  rw [exec_readReg, readRegister, hr, ← h, ← readReg_eq_ofNat]

/-- Settles O20: each row gives the address of a register and its value. -/
theorem readRegReturnsEachRegister : Obligations.ReadRegReturnsEachRegister := by
  unfold Obligations.ReadRegReturnsEachRegister
  intro s dw aw cw l stateNumber row hrow
  have row_is (r : Reg) (n : Nat) (h : s.regValue r = n) (hr : row = (r.addr, n)) :
      exec (.readReg row.1) s = .next { s with rdata64 := BitVec.ofNat 64 row.2 } := by
    rw [hr]
    exact exec_readReg_addr h
  have state_value : s.regValue .state = stateNumber := by
    unfold stateNumber State.regValue
    cases s.state <;> rfl
  simp only [List.mem_cons, List.not_mem_nil, or_false] at hrow
  obtain h | h | h | h | h | h | h | h | h | h | h | h | h | h | h | h | h := hrow
  · exact row_is .dataWidth _ rfl h
  · exact row_is .addrWidth _ rfl h
  · exact row_is .rlcWidth _ rfl h
  · exact row_is .limitSamples _ rfl h
  · exact row_is .captureRatio _ rfl h
  · exact row_is .state _ state_value h
  · exact row_is .status _ rfl h
  · exact row_is .transferredBytes _ rfl h
  · exact row_is .totalSamples _ rfl h
  · exact row_is .delayRaw _ rfl h
  · exact row_is .delayValue _ rfl h
  · exact row_is .dataWidthBytes _ rfl h
  · exact row_is .addrWidthBytes _ rfl h
  · exact row_is .rawDataWidthBytes _ rfl h
  · exact row_is .limitSamplesMax _ rfl h
  · exact row_is .budgetBytes _ rfl h
  · exact row_is .rxEn _ rfl h

/-- At reset every register is 0 but the two sample limits, which are 1 (10_state.md R23, R45). -/
theorem regValue_reset (r : Reg) :
    BitVec.ofNat 64 (State.reset.regValue r) = if r.addr = 0x03#8 ∨ r.addr = 0x19#8 then 1#64 else 0#64 := by
  cases r <;> rfl

/-- Settles O22: the addresses are those of the map, and each register has its reset value. -/
theorem registersReadTheirResetValues : Obligations.RegistersReadTheirResetValues := by
  unfold Obligations.RegistersReadTheirResetValues
  intro a ha
  have mapped : ∃ r : Reg, r.addr = a := by
    have rows : ∀ b ∈ ([0x00, 0x01, 0x02, 0x03, 0x04, 0x10, 0x11, 0x12, 0x13, 0x14, 0x15, 0x16, 0x17, 0x18, 0x19, 0x1A,
        0x1B] : List Byte), ∃ r ∈ Reg.all, r.addr = b := by decide
    obtain ⟨r, -, hr⟩ := rows a ha
    exact ⟨r, hr⟩
  obtain ⟨r, rfl⟩ := mapped
  rw [exec_readReg_addr rfl, regValue_reset]

end Sys2Proof.Machine
end

section
/-! ARM and ABORT (43_rlc_decoder.md R214, R215), and what each instruction leaves unchanged (10_state.md R41 to R46).
-/

namespace Sys2Proof.Machine

/-! ### ARM -/

theorem exec_arm (s : State) : exec .arm s = .next (armEffect s) := rfl

theorem armEffect_of_active {s : State} (h : s.active = true) :
    armEffect s = { s with status := s.status ||| 0x40#8 } := if_pos h

theorem armEffect_of_not_cfgValid {s : State} (h : ¬ s.active = true) (hcfg : ¬ s.cfgValid = true) :
    armEffect s = { s with status := s.status ||| 0x80#8 } :=
  (if_neg h).trans (if_neg hcfg)

theorem armEffect_of_budget_gt {s : State} (h : ¬ s.active = true) (hcfg : s.cfgValid = true)
    (hbudget : s.params.rawCapacityBytes < s.budgetBytes) :
    armEffect s = enterDone (setStatus .allocFail (armLatch s)) :=
  (if_neg h).trans ((if_pos hcfg).trans (if_pos hbudget))

theorem armEffect_of_budget_le {s : State} (h : ¬ s.active = true) (hcfg : s.cfgValid = true)
    (hbudget : s.budgetBytes ≤ s.params.rawCapacityBytes) :
    armEffect s = { armLatch s with outSrc := .rawbuf, state := .accumulating, rxEn := true } :=
  (if_neg h).trans ((if_pos hcfg).trans (if_neg (by omega)))

/-- The words of the operations that need ARG8 to be 0x00 run them, whatever their DATA64. -/
theorem runItem_arm (d : Word64) (s : State) : runItem (.hcw (hcwOf 0x10#8 0x00#8) d) s = exec .arm s :=
  runItem_of_decode_ok (decode_hcwOf 0x10#8 0x00#8 d) s

/-- Settles O23: the four outcomes, by the three checks in order. -/
theorem armFollowsItsChecksInOrder : Obligations.ArmFollowsItsChecksInOrder := by
  unfold Obligations.ArmFollowsItsChecksInOrder
  intro s dw l p budget active legal latched
  have active_eq : s.active = true ↔ active := active_iff s
  have legal_eq : s.cfgValid = true ↔ legal := by
    rw [cfgValid_iff]
    simp only [legal, dw, l, p, and_assoc]
  rw [← active_eq, ← legal_eq, exec_arm]
  refine ⟨fun d => runItem_arm d s, fun h => ?_, fun h hcfg => ?_, fun h hcfg hbudget => ?_, fun h hcfg hbudget => ?_⟩
  · rw [armEffect_of_active h]
  · rw [armEffect_of_not_cfgValid h hcfg]
  · rw [armEffect_of_budget_gt h hcfg hbudget]
    rfl
  · rw [armEffect_of_budget_le h hcfg hbudget]
    rfl

/-! ### ABORT -/

theorem exec_abort (s : State) : exec .abort s = .next (abortEffect s) := rfl

theorem runItem_abort (d : Word64) (s : State) : runItem (.hcw (hcwOf 0x11#8 0x00#8) d) s = exec .abort s :=
  runItem_of_decode_ok (decode_hcwOf 0x11#8 0x00#8 d) s

/-- Settles O24: ABORTED is fatal and ILLEGAL_CMD is not. -/
theorem abortEndsTheAcquisition : Obligations.AbortEndsTheAcquisition := by
  unfold Obligations.AbortEndsTheAcquisition
  intro s
  refine ⟨fun d => runItem_abort d s, fun h => ?_, fun h => ?_⟩
  · obtain ⟨-, heq⟩ | ⟨hn, -⟩ := abortEffect_cases s
    · rw [exec_abort, heq]
      rfl
    · exact absurd h hn
  · obtain ⟨hs, -⟩ | ⟨-, heq⟩ := abortEffect_cases s
    · obtain hs | hs := hs <;> simp [hs] at h
    · rw [exec_abort, heq, takeException_illegalCmd]

/-! ### What each instruction leaves unchanged -/

/-- The bytes of a space are those its store lists, and for the rest the draws of its epoch. -/
theorem byteAt_congr {s t : State} (hraw : t.rawbuf = s.rawbuf) (hout : t.outbuf = s.outbuf) (hepoch : t.epoch = s.epoch)
    (sp : Space) (a : Nat) : t.byteAt sp a = s.byteAt sp a := by
  unfold State.byteAt
  cases sp <;> simp only [State.space, hraw, hout, hepoch]

/-- The buffers, RPT and the draws of their unwritten bytes are as they were. -/
structure State.KeepsBuffers (s t : State) : Prop where
  rawbuf : t.rawbuf = s.rawbuf
  outbuf : t.outbuf = s.outbuf
  rpt : t.rpt = s.rpt
  epoch : t.epoch = s.epoch

theorem State.KeepsBuffers.reads {s t : State} (h : State.KeepsBuffers s t) :
    (∀ (sp : Space) (a : Nat), t.byteAt sp a = s.byteAt sp a) ∧ ∀ a, Store.read t.rpt a = Store.read s.rpt a :=
  ⟨byteAt_congr h.rawbuf h.outbuf h.epoch, fun a => by rw [h.rpt]⟩

/-- ARM enters DONE and hands END, or keeps the buffers. -/
theorem armEffect_done_or_keepsBuffers (s : State) :
    ((armEffect s).state = .done ∧ (armEffect s).sink = s.sink ++ [.endOfAcquisition]) ∨
      State.KeepsBuffers s (armEffect s) := by
  obtain ⟨-, h⟩ | ⟨-, -, h⟩ | ⟨-, -, -, h⟩ | ⟨-, -, -, h⟩ := armEffect_cases s <;> rw [h]
  · exact .inr ⟨rfl, rfl, rfl, rfl⟩
  · exact .inr ⟨rfl, rfl, rfl, rfl⟩
  · exact .inl ⟨rfl, rfl⟩
  · exact .inr ⟨rfl, rfl, rfl, rfl⟩

/-- ABORT enters DONE and hands END, or keeps the buffers. -/
theorem abortEffect_done_or_keepsBuffers (s : State) :
    ((abortEffect s).state = .done ∧ (abortEffect s).sink = s.sink ++ [.endOfAcquisition]) ∨
      State.KeepsBuffers s (abortEffect s) := by
  obtain ⟨-, h⟩ | ⟨-, h⟩ := abortEffect_cases s <;> rw [h]
  · exact .inl ⟨rfl, rfl⟩
  · exact .inr ⟨rfl, rfl, rfl, rfl⟩

/-- Settles O26: what the meaning of each instruction changes at most is in its `_frame` lemma, and of the two that
may change the buffers what they do to them is in their own. -/
theorem instructionsKeepWhatTheyDoNotName : Obligations.InstructionsKeepWhatTheyDoNotName := by
  unfold Obligations.InstructionsKeepWhatTheyDoNotName
  intro i s t h
  obtain ⟨rfl, rfl⟩ | ⟨c, hwire, rfl⟩ | ⟨b, rfl, rfl⟩ | ⟨rfl, rfl⟩ | ⟨rfl, rfl⟩ | ⟨a, v, rfl, rfl⟩ | ⟨a, rfl, rfl⟩ :=
    exec_cases h
  · simp
  · obtain ⟨w, e, heq⟩ := txWrite_frame c s
    rw [sendRaw, heq, hwire]
    exact ⟨by simp, by simp, by simp, by simp, by simp, .inr (State.KeepsBuffers.reads ⟨rfl, rfl, rfl, rfl⟩)⟩
  · obtain ⟨w, e, answers, draws, heq⟩ := sendPayload_frame b s
    have hwire : wireOf (.sendEscaped b) ≠ [] := by
      rw [wireOf, enc]
      split <;> simp
    rw [heq]
    exact ⟨by simp, by simp, by simp, by simp [hwire], by simp, .inr (State.KeepsBuffers.reads ⟨rfl, rfl, rfl, rfl⟩)⟩
  · have buffers := (armEffect_done_or_keepsBuffers s).imp_right State.KeepsBuffers.reads
    obtain ⟨state, e, tb, ts, dr, dv, rxEn, rawbuf, rpt, outbuf, outSrc, evs, epoch, heq⟩ := armEffect_frame s
    rw [heq] at buffers ⊢
    simpa using buffers
  · have buffers := (abortEffect_done_or_keepsBuffers s).imp_right State.KeepsBuffers.reads
    obtain ⟨state, e, rxEn, rawbuf, rpt, outbuf, evs, epoch, heq⟩ := abortEffect_frame s
    rw [heq] at buffers ⊢
    simpa using buffers
  · obtain ⟨dataWidth, addrWidth, rlcWidth, limitSamples, captureRatio, status, heq⟩ := writeRegister_frame a v s
    rw [heq]
    exact ⟨by simp, by simp, by simp, by simp, by simp, .inr (State.KeepsBuffers.reads ⟨rfl, rfl, rfl, rfl⟩)⟩
  · obtain ⟨rdata64, e, heq⟩ := readRegister_frame a s
    rw [heq]
    exact ⟨by simp, by simp, by simp, by simp, by simp, .inr (State.KeepsBuffers.reads ⟨rfl, rfl, rfl, rfl⟩)⟩

end Sys2Proof.Machine
end

section
/-! The decoder's own steps as equations (43_rlc_decoder.md R216 to R223), and everything one step of the machine can
do to the block. -/

namespace Sys2Proof.Machine

/-! ### The decoder's steps -/

/-- How many bytes of a chunk the budget leaves room for (43_rlc_decoder.md R216). -/
def State.roomFor (c : List Byte) (s : State) : Nat := min c.length (s.budgetBytes - s.transferredBytes)

/-- The state after a chunk, field by field (43_rlc_decoder.md R216). -/
theorem takeChunk_eq (c : List Byte) (s : State) :
    takeChunk c s =
      { s with
        rawbuf := Store.writeRun s.rawbuf s.transferredBytes (c.take (s.roomFor c))
        transferredBytes := s.transferredBytes + s.roomFor c
        status := s.status ||| (if s.roomFor c < c.length then 0x02#8 else 0#8)
        state := if s.transferredBytes + s.roomFor c = s.budgetBytes then .decoding else s.state } := by
  have room : min c.length (s.budgetBytes - s.transferredBytes) = s.roomFor c := rfl
  simp only [takeChunk, room]
  by_cases htrunc : s.roomFor c < c.length <;> by_cases hfull : s.transferredBytes + s.roomFor c = s.budgetBytes <;>
    simp only [htrunc, hfull, if_true, if_false, BitVec.or_zero]
  · exact if_pos rfl
  · exact if_neg hfull
  · exact if_pos rfl
  · exact if_neg hfull

/-- A guarded access inside its space goes on. -/
theorem guardSpace_of_inSpace {sp : Space} {a n : Nat} {s : State} (k : Result) (h : inSpace sp a n s = true) :
    guardSpace sp a n s k = k := if_pos h

theorem rxReady_of_not_enabled {s : State} (h : ¬ (s.state = .accumulating ∧ s.rxEn = true)) (n : Nat) :
    rxReady n s = .next s := if_neg h

theorem rxReady_of_enabled {s : State} (h : s.state = .accumulating ∧ s.rxEn = true) (n : Nat) :
    rxReady n s = guardSpace .rawbuf s.transferredBytes (s.roomFor (s.rx.take (chunkSize n s))) s
      (.next (takeChunk (s.rx.take (chunkSize n s)) { s with rx := s.rx.drop (chunkSize n s) })) := if_pos h

theorem decodeStep_of_plain {s : State} (h : s.cw = 0) : decodeStep s = .next (decodePlain s) := if_pos h

theorem decodeStep_of_rpt_lt {s : State} (hcw : 0 < s.cw) (h : s.params.rptCapacityEntries < s.limit) :
    decodeStep s = .next (takeException .allocFail s) :=
  (if_neg hcw.ne').trans (if_pos h)

theorem decodeStep_of_rpt_ge {s : State} (hcw : 0 < s.cw) (h : s.limit ≤ s.params.rptCapacityEntries) :
    decodeStep s = guardSpace .rawbuf 0 (s.limit * s.rawDataWidthBytes) s
      (if s.params.outCapacityBytes < s.repeatCounts.sum * s.dataWidthBytes then .next (takeException .allocFail s)
      else .next (decodeExpanded s)) :=
  (if_neg hcw.ne').trans (if_neg h.not_gt)

theorem internalStep_of_decoding {s : State} (h : s.state = .decoding) : internalStep s = decodeStep s := by
  rw [internalStep, h]

theorem internalStep_of_delivering {s : State} (h : s.state = .delivering) : internalStep s = deliverStep s := by
  rw [internalStep, h]

theorem internalStep_of_passing {s : State} (hdec : s.state ≠ .decoding) (hdel : s.state ≠ .delivering) :
    internalStep s = .next s := by
  unfold internalStep
  cases hs : s.state with
  | decoding => exact absurd hs hdec
  | delivering => exact absurd hs hdel
  | _ => rfl

theorem deliverStep_of_pre {s : State} (h : s.delivPhase = .pre) : deliverStep s = deliverPre s := by
  rw [deliverStep, h]

theorem deliverStep_of_trig {s : State} (h : s.delivPhase = .trig) : deliverStep s = deliverTrigger s := by
  rw [deliverStep, h]

theorem deliverStep_of_post {s : State} (h : s.delivPhase = .post) : deliverStep s = deliverPost s := by
  rw [deliverStep, h]

theorem takeTurn_decoderStep (s : State) : takeTurn .decoderStep s = internalStep s := rfl

theorem takeTurn_rxReady (n : Nat) (s : State) : takeTurn (.rxReady n) s = rxReady n s := rfl

/-- What RX_READY changes at most, and how STATE moves. -/
theorem rxReady_frame {n : Nat} {s t : State} (h : rxReady n s = .next t) :
    ∃ rx rawbuf transferredBytes e state,
      t = { s with rx := rx, rawbuf := rawbuf, transferredBytes := transferredBytes, status := s.status ||| e,
                   state := state } ∧
      (state = s.state ∨ (s.state = .accumulating ∧ state = .decoding)) := by
  obtain ⟨-, rfl⟩ | ⟨⟨hacc, -⟩, -, rfl⟩ := rxReady_cases h
  · exact ⟨t.rx, t.rawbuf, t.transferredBytes, 0#8, t.state, by rw [BitVec.or_zero], .inl rfl⟩
  · rw [takeChunk_eq]
    refine ⟨_, _, _, _, _, rfl, ?_⟩
    split
    · exact .inr ⟨hacc, rfl⟩
    · exact .inl rfl

/-- What DECODE changes at most, and how STATE moves. -/
theorem decodeStep_frame {s t : State} (h : decodeStep s = .next t) :
    t = takeException .allocFail s ∨
    ∃ rpt outbuf totalSamples delayValue outSrc delivPhase,
      t = { s with rpt := rpt, outbuf := outbuf, totalSamples := totalSamples, delayValue := delayValue,
                   outSrc := outSrc, delivPhase := delivPhase, state := .delivering } := by
  obtain ⟨-, rfl⟩ | ⟨-, rfl, -⟩ | ⟨-, -, -, rfl⟩ := decodeStep_cases h
  · exact .inr ⟨_, _, _, _, _, _, rfl⟩
  · exact .inl rfl
  · exact .inr ⟨_, _, _, _, _, _, rfl⟩

/-- What a delivery step changes at most: it hands events that are no END and stays in DELIVERING, or performs the
DONE entry actions after its last event. -/
theorem deliverStep_frame {s t : State} (h : deliverStep s = .next t) :
    (∃ ev delivPhase, t = { s with sink := s.sink ++ [ev], delivPhase := delivPhase }) ∨
    (s.delivPhase = .post ∧ ∃ bytes unitsize, t = enterDone (sinkEvent (.logic bytes unitsize) s)) := by
  obtain ⟨-, rfl⟩ | ⟨-, rfl⟩ | ⟨hpost, rfl⟩ := deliverStep_cases h
  · exact .inl ⟨_, _, rfl⟩
  · exact .inl ⟨_, _, rfl⟩
  · exact .inr ⟨hpost, _, _, rfl⟩

/-! ### One step of the machine, as the block sees it -/

/-- `u` differs from `s` at most in the HOST, its port, the RX stream and the model's turns and draws. -/
def State.SameBlock (s u : State) : Prop :=
  ∃ host port rx schedule draws,
    u = { s with host := host, port := port, rx := rx, schedule := schedule, draws := draws }

theorem afterTurn_frame (s : State) : ∃ schedule draws, afterTurn s = { s with schedule := schedule, draws := draws } := by
  unfold afterTurn
  split <;> exact ⟨_, _, rfl⟩

theorem sameBlock_afterTurn (s : State) : s.SameBlock (afterTurn s) := by
  obtain ⟨schedule, draws, h⟩ := afterTurn_frame s
  rw [h]
  exact ⟨_, _, _, _, _, rfl⟩

theorem State.SameBlock.trans {s u v : State} (h : s.SameBlock u) (h' : u.SameBlock v) : s.SameBlock v := by
  obtain ⟨_, _, _, _, _, rfl⟩ := h
  obtain ⟨_, _, _, _, _, rfl⟩ := h'
  exact ⟨_, _, _, _, _, rfl⟩

theorem State.SameBlock.params {s u : State} (h : s.SameBlock u) : u.params = s.params := by
  obtain ⟨_, _, _, _, _, rfl⟩ := h
  rfl

theorem State.SameBlock.dataWidth {s u : State} (h : s.SameBlock u) : u.dataWidth = s.dataWidth := by
  obtain ⟨_, _, _, _, _, rfl⟩ := h
  rfl

theorem State.SameBlock.addrWidth {s u : State} (h : s.SameBlock u) : u.addrWidth = s.addrWidth := by
  obtain ⟨_, _, _, _, _, rfl⟩ := h
  rfl

theorem State.SameBlock.rlcWidth {s u : State} (h : s.SameBlock u) : u.rlcWidth = s.rlcWidth := by
  obtain ⟨_, _, _, _, _, rfl⟩ := h
  rfl

theorem State.SameBlock.limitSamples {s u : State} (h : s.SameBlock u) : u.limitSamples = s.limitSamples := by
  obtain ⟨_, _, _, _, _, rfl⟩ := h
  rfl

theorem State.SameBlock.captureRatio {s u : State} (h : s.SameBlock u) : u.captureRatio = s.captureRatio := by
  obtain ⟨_, _, _, _, _, rfl⟩ := h
  rfl

theorem State.SameBlock.state {s u : State} (h : s.SameBlock u) : u.state = s.state := by
  obtain ⟨_, _, _, _, _, rfl⟩ := h
  rfl

theorem State.SameBlock.status {s u : State} (h : s.SameBlock u) : u.status = s.status := by
  obtain ⟨_, _, _, _, _, rfl⟩ := h
  rfl

theorem State.SameBlock.tx {s u : State} (h : s.SameBlock u) : u.tx = s.tx := by
  obtain ⟨_, _, _, _, _, rfl⟩ := h
  rfl

theorem State.SameBlock.sink {s u : State} (h : s.SameBlock u) : u.sink = s.sink := by
  obtain ⟨_, _, _, _, _, rfl⟩ := h
  rfl

theorem State.SameBlock.delivPhase {s u : State} (h : s.SameBlock u) : u.delivPhase = s.delivPhase := by
  obtain ⟨_, _, _, _, _, rfl⟩ := h
  rfl

/-- The HOST's own turns and the DEVICE's leave the block alone. -/
theorem takeTurn_environment {turn : Turn} {s s' : State}
    (hturn : turn = .hostNegotiate ∨ (∃ a, turn = .hostRead a) ∨ (∃ r, turn = .hostAcquire r) ∨ turn = .hostFollow ∨
      (∃ items, turn = .hostIssues items) ∨ ∃ bytes, turn = .deviceSends bytes)
    (h : takeTurn turn s = .next s') :
    ∃ host port rx draws, s' = { s with host := host, port := port, rx := rx, draws := draws } := by
  have out {u : State} (hu : takeTurn turn s = .next u) : s' = u := Host.Outcome.next.inj (h.symm.trans hu)
  obtain rfl | ⟨a, rfl⟩ | ⟨r, rfl⟩ | rfl | ⟨items, rfl⟩ | ⟨bytes, rfl⟩ := hturn
  · obtain ⟨host, port, heq⟩ := hostNegotiate_eq s
    exact ⟨_, _, _, _, (out rfl).trans heq⟩
  · obtain ⟨host, port, rx, heq⟩ := hostRead_eq a s
    exact ⟨_, _, _, _, (out rfl).trans heq⟩
  · obtain ⟨host, port, draws, heq⟩ := hostAcquire_eq r s
    exact ⟨_, _, _, _, (out rfl).trans heq⟩
  · obtain ⟨host, port, heq⟩ := hostFollow_eq s
    exact ⟨_, _, _, _, (out rfl).trans heq⟩
  · exact ⟨_, _, _, _, out rfl⟩
  · exact ⟨_, _, _, _, out rfl⟩

/-- Settles O60: at most the HOST, its port, the RX stream and the draw counter have changed. -/
theorem hostAndDeviceLeaveTheBlockAlone : Obligations.HostAndDeviceLeaveTheBlockAlone := by
  unfold Obligations.HostAndDeviceLeaveTheBlockAlone
  intro turn s s' hturn h
  obtain ⟨host, port, rx, draws, rfl⟩ := takeTurn_environment hturn h
  rfl

/-- Everything an issued item can do to the block: ARM, ABORT and WRITE_REG act, and every other item only reads into
RDATA64, sends and raises. -/
theorem runItem_block {c : Command} {s s' : State} (h : runItem c s = .next s') :
    (decode c = .ok .arm ∧ s' = armEffect s) ∨ (decode c = .ok .abort ∧ s' = abortEffect s) ∨
    (∃ a v, decode c = .ok (.writeReg a v) ∧ s' = writeRegister a v s) ∨
    (∃ rdata64 w e answers draws,
      s' = { s with rdata64 := rdata64, tx := s.tx ++ w, status := s.status ||| e, answers := answers,
                    draws := draws }) := by
  have raw (b : Byte) : ∃ rdata64 w e answers draws, sendRaw b s =
      { s with rdata64 := rdata64, tx := s.tx ++ w, status := s.status ||| e, answers := answers, draws := draws } := by
    obtain ⟨w, e, heq⟩ := txWrite_frame b s
    exact ⟨s.rdata64, w, e, _, _, heq⟩
  obtain ⟨i, hdecode, hexec⟩ | ⟨e, -, rfl⟩ | ⟨b, -, rfl⟩ := runItem_cases h
  · obtain ⟨rfl, rfl⟩ | ⟨b, -, rfl⟩ | ⟨b, rfl, rfl⟩ | ⟨rfl, rfl⟩ | ⟨rfl, rfl⟩ | ⟨a, v, rfl, rfl⟩ | ⟨a, rfl, rfl⟩ :=
      exec_cases hexec
    · exact .inr (.inr (.inr ⟨s'.rdata64, [], 0#8, s'.answers, s'.draws, by rw [List.append_nil, BitVec.or_zero]⟩))
    · exact .inr (.inr (.inr (raw b)))
    · obtain ⟨w, e, answers, draws, heq⟩ := sendPayload_frame b s
      exact .inr (.inr (.inr ⟨s.rdata64, w, e, answers, draws, heq⟩))
    · exact .inl ⟨hdecode, rfl⟩
    · exact .inr (.inl ⟨hdecode, rfl⟩)
    · exact .inr (.inr (.inl ⟨a, v, hdecode, rfl⟩))
    · obtain ⟨rdata64, e, heq⟩ := readRegister_frame a s
      exact .inr (.inr (.inr ⟨rdata64, [], e, s.answers, s.draws, by rw [heq, List.append_nil]⟩))
  · exact .inr (.inr (.inr ⟨s.rdata64, [], 0x40#8, s.answers, s.draws, by
      rw [takeException_illegalCmd, List.append_nil]⟩))
  · exact .inr (.inr (.inr (raw b)))

/-- Everything one step can do to the block: one case for each thing that acts on it, on a state `u` that differs from
`s` only outside it. -/
theorem step_cases {s s' : State} (h : step s = .next s') :
    ∃ u, s.SameBlock u ∧
      (s' = u ∨ (s.issues .arm ∧ s' = armEffect u) ∨ (s.issues .abort ∧ s' = abortEffect u) ∨
      (∃ a v, s.issues (.writeReg a v) ∧ s' = writeRegister a v u) ∨
      (∃ rdata64 w e answers draws,
        s' = { u with rdata64 := rdata64, tx := u.tx ++ w, status := u.status ||| e, answers := answers,
                      draws := draws }) ∨
      (∃ n, nextTurn s = .rxReady n ∧ rxReady n u = .next s') ∨
      (nextTurn s = .decoderStep ∧ internalStep u = .next s') ∨ (nextTurn s = .resetInput ∧ s' = resetBlock u)) := by
  have hu := sameBlock_afterTurn s
  have env (hturn : nextTurn s = .hostNegotiate ∨ (∃ a, nextTurn s = .hostRead a) ∨ (∃ r, nextTurn s = .hostAcquire r) ∨
      nextTurn s = .hostFollow ∨ (∃ items, nextTurn s = .hostIssues items) ∨ ∃ bs, nextTurn s = .deviceSends bs) :
      s.SameBlock s' := by
    obtain ⟨_, _, _, _, heq⟩ := takeTurn_environment hturn h
    exact hu.trans ⟨_, _, _, _, _, heq⟩
  obtain ⟨-, -, rfl⟩ | ⟨c, cs, hturn, hport, hrun⟩ | ⟨hturn, -⟩ | ⟨a, hturn, -⟩ | ⟨r, hturn, -⟩ | ⟨hturn, -⟩ |
    ⟨items, hturn, -⟩ | ⟨bs, hturn, -⟩ | ⟨n, hturn, hrx⟩ | ⟨hturn, hstep⟩ | ⟨hturn, rfl⟩ := takeTurn_cases h
  · exact ⟨_, hu, .inl rfl⟩
  · rw [afterTurn_port] at hport
    have issues {i : Instr} (hi : decode c = .ok i) : s.issues i := ⟨hturn, c, cs, hport, hi⟩
    refine ⟨{ afterTurn s with port := cs }, hu.trans ⟨_, cs, _, _, _, rfl⟩, ?_⟩
    obtain ⟨hi, heq⟩ | ⟨hi, heq⟩ | ⟨a, v, hi, heq⟩ | hquiet := runItem_block hrun
    · exact .inr (.inl ⟨issues hi, heq⟩)
    · exact .inr (.inr (.inl ⟨issues hi, heq⟩))
    · exact .inr (.inr (.inr (.inl ⟨a, v, issues hi, heq⟩)))
    · exact .inr (.inr (.inr (.inr (.inl hquiet))))
  iterate 6 exact ⟨s', env (by simp [hturn]), .inl rfl⟩
  · exact ⟨_, hu, .inr (.inr (.inr (.inr (.inr (.inl ⟨n, hturn, hrx⟩)))))⟩
  · exact ⟨_, hu, .inr (.inr (.inr (.inr (.inr (.inr (.inl ⟨hturn, hstep⟩))))))⟩
  · exact ⟨_, hu, .inr (.inr (.inr (.inr (.inr (.inr (.inr ⟨hturn, rfl⟩))))))⟩

end Sys2Proof.Machine
end

section
/-! What every step of the machine keeps: the streams, STATUS, STATE and its edges, the configuration and the results
(10_state.md R30; 20_memory.md R64, R65, R81, R82; 43_rlc_decoder.md R210, R224; 70_reset_and_hazards.md R290 to
R302). Each is read off the cases of one step. -/

namespace Sys2Proof.Machine

/-- Everything the decoder's turn can do to the block. -/
theorem internalStep_frame {s t : State} (h : internalStep s = .next t) :
    (s.state ≠ .decoding ∧ s.state ≠ .delivering ∧ t = s) ∨
    (s.state = .decoding ∧ t = takeException .allocFail s) ∨
    (s.state = .decoding ∧ ∃ rpt outbuf totalSamples delayValue outSrc delivPhase,
      t = { s with rpt := rpt, outbuf := outbuf, totalSamples := totalSamples, delayValue := delayValue,
                   outSrc := outSrc, delivPhase := delivPhase, state := .delivering }) ∨
    (s.state = .delivering ∧ ∃ ev delivPhase, t = { s with sink := s.sink ++ [ev], delivPhase := delivPhase }) ∨
    (s.state = .delivering ∧ s.delivPhase = .post ∧ ∃ bytes unitsize,
      t = enterDone (sinkEvent (.logic bytes unitsize) s)) := by
  obtain hpass | ⟨hstate, hdecode⟩ | ⟨hstate, hdeliver⟩ := internalStep_cases h
  · exact .inl hpass
  · obtain hfail | hok := decodeStep_frame hdecode
    · exact .inr (.inl ⟨hstate, hfail⟩)
    · exact .inr (.inr (.inl ⟨hstate, hok⟩))
  · obtain hev | ⟨hpost, hdone⟩ := deliverStep_frame hdeliver
    · exact .inr (.inr (.inr (.inl ⟨hstate, hev⟩)))
    · exact .inr (.inr (.inr (.inr ⟨hstate, hpost, hdone⟩)))

/-! ### The streams -/

/-- Settles O14: whatever acts, the TX stream and the SINK's events are those of before with something after them. -/
theorem txStreamAndSinkOnlyGrow : Obligations.TxStreamAndSinkOnlyGrow := by
  unfold Obligations.TxStreamAndSinkOnlyGrow
  intro s s' h
  obtain ⟨u, hu, hcase⟩ := step_cases h
  rw [← hu.tx, ← hu.sink]
  obtain rfl | ⟨-, rfl⟩ | ⟨-, rfl⟩ | ⟨a, v, -, rfl⟩ | ⟨_, _, _, _, _, rfl⟩ | ⟨n, -, hrx⟩ | ⟨-, hstep⟩ | ⟨-, rfl⟩ := hcase
  · exact ⟨List.prefix_rfl, List.prefix_rfl⟩
  · obtain ⟨_, _, _, _, _, _, _, _, _, _, _, _, _, heq⟩ := armEffect_frame u
    rw [heq]
    exact ⟨List.prefix_rfl, List.prefix_append _ _⟩
  · obtain ⟨_, _, _, _, _, _, _, _, heq⟩ := abortEffect_frame u
    rw [heq]
    exact ⟨List.prefix_rfl, List.prefix_append _ _⟩
  · obtain ⟨_, _, _, _, _, _, heq⟩ := writeRegister_frame a v u
    rw [heq]
    exact ⟨List.prefix_rfl, List.prefix_rfl⟩
  · exact ⟨List.prefix_append _ _, List.prefix_rfl⟩
  · obtain ⟨_, _, _, _, _, rfl, -⟩ := rxReady_frame hrx
    exact ⟨List.prefix_rfl, List.prefix_rfl⟩
  · obtain ⟨-, -, rfl⟩ | ⟨-, rfl⟩ | ⟨-, _, _, _, _, _, _, rfl⟩ | ⟨-, _, _, rfl⟩ | ⟨-, -, _, _, rfl⟩ :=
      internalStep_frame hstep
    · exact ⟨List.prefix_rfl, List.prefix_rfl⟩
    · exact ⟨List.prefix_rfl, List.prefix_append _ _⟩
    · exact ⟨List.prefix_rfl, List.prefix_rfl⟩
    · exact ⟨List.prefix_rfl, List.prefix_append _ _⟩
    · exact ⟨List.prefix_rfl, (List.prefix_append _ _).trans (List.prefix_append _ _)⟩
  · exact ⟨List.prefix_rfl, List.prefix_rfl⟩

theorem exec_rx {i : Instr} {s t : State} (h : exec i s = .next t) : t.rx = s.rx := by
  obtain ⟨⟨-, hrx, -⟩, -⟩ := instructionsKeepWhatTheyDoNotName i s t h
  exact hrx

theorem runItem_rx {c : Command} {s t : State} (h : runItem c s = .next t) : t.rx = s.rx := by
  obtain ⟨i, -, hexec⟩ | ⟨e, -, rfl⟩ | ⟨b, -, rfl⟩ := runItem_cases h
  · exact exec_rx hexec
  · exact takeException_rx _ _
  · exact txWrite_rx _ _

/-- A blocking read waits, or takes its bytes from the front of the RX stream, or fails having taken some from there. -/
theorem blockingRead_cases (n : Nat) (a : ReadAnswer) (rx : List Byte) :
    blockingRead n a rx = .waits ∨ (∃ bytes k, blockingRead n a rx = .got bytes (rx.drop k)) ∨
      ∃ e k, blockingRead n a rx = .failed e (rx.drop k) := by
  cases a with
  | answered =>
    rw [blockingRead]
    split_ifs
    · exact .inr (.inl ⟨_, n, rfl⟩)
    · exact .inl rfl
  | timedOut lost => exact .inr (.inr ⟨_, min lost n, rfl⟩)
  | connectionError lost => exact .inr (.inr ⟨_, min lost n, rfl⟩)

/-- A blocking read of the HOST waits or passes, or hands it the reply, the request having been issued. -/
theorem hostRead_cases (a : ReadAnswer) (s : State) :
    hostRead a s = s ∨
    ∃ q reply k, s.host.phase = .awaiting q ∧ s.port = [] ∧
      hostRead a s =
        { s with host := (onReply q reply s.host).1, port := (onReply q reply s.host).2, rx := s.rx.drop k } := by
  cases hport : s.port with
  | cons c cs =>
    left
    unfold hostRead
    rw [hport]
    cases s.host.phase <;> rfl
  | nil =>
    cases hphase : s.host.phase with
    | awaiting q =>
      unfold hostRead
      rw [hphase, hport]
      obtain hread | ⟨bytes, k, hread⟩ | ⟨e, k, hread⟩ := blockingRead_cases (replyLength q) a s.rx
      · exact .inl (by simp [hread])
      · exact .inr ⟨q, .ok bytes, k, rfl, rfl, by simp [hostDecides, hread]⟩
      · exact .inr ⟨q, .error e, k, rfl, rfl, by simp [hostDecides, hread]⟩
    | _ =>
      left
      unfold hostRead
      rw [hphase, hport]

theorem hostRead_rx (a : ReadAnswer) (s : State) : ∃ k, (hostRead a s).rx = s.rx.drop k := by
  obtain heq | ⟨q, reply, k, -, -, heq⟩ := hostRead_cases a s <;> rw [heq]
  · exact ⟨0, rfl⟩
  · exact ⟨k, rfl⟩

/-- Settles O44: only RX_READY, a blocking read and the DEVICE touch the RX stream. -/
theorem rxStreamIsConsumedFromTheFront : Obligations.RxStreamIsConsumedFromTheFront := by
  unfold Obligations.RxStreamIsConsumedFromTheFront
  intro s s' h
  obtain ⟨schedule, draws, hafter⟩ := afterTurn_frame s
  rw [step, hafter] at h
  obtain ⟨-, -, rfl⟩ | ⟨c, cs, -, -, hrun⟩ | ⟨-, rfl⟩ | ⟨a, hturn, rfl⟩ | ⟨r, -, rfl⟩ | ⟨-, rfl⟩ | ⟨items, -, rfl⟩ |
    ⟨bs, hturn, rfl⟩ | ⟨n, hturn, hrx⟩ | ⟨-, hstep⟩ | ⟨-, rfl⟩ := takeTurn_cases h
  · exact .inl rfl
  · have hrx := runItem_rx hrun
    exact .inl hrx
  · obtain ⟨_, _, heq⟩ := hostNegotiate_eq _
    exact .inl (by rw [heq])
  · exact .inr (.inr (.inr ⟨a, hturn, hostRead_rx a _⟩))
  · obtain ⟨_, _, _, heq⟩ := hostAcquire_eq r _
    exact .inl (by rw [heq])
  · obtain ⟨_, _, heq⟩ := hostFollow_eq _
    exact .inl (by rw [heq])
  · exact .inl rfl
  · exact .inr (.inl ⟨bs, hturn, rfl⟩)
  · obtain ⟨-, rfl⟩ | ⟨⟨hacc, hrxEn⟩, -, rfl⟩ := rxReady_cases hrx
    · exact .inl rfl
    · rw [takeChunk_eq]
      refine .inr (.inr (.inl ⟨n, hturn, hacc, hrxEn, _, ?_, ?_, rfl⟩)) <;> unfold chunkSize <;> simp
  · left
    obtain ⟨-, -, rfl⟩ | ⟨-, rfl⟩ | ⟨-, _, _, _, _, _, _, rfl⟩ | ⟨-, _, _, rfl⟩ | ⟨-, -, _, _, rfl⟩ :=
      internalStep_frame hstep <;> rfl
  · exact .inl rfl

/-! ### STATUS -/

/-- A WRITE_REG clears STATUS bits only at the address of STATUS, and raises at most. -/
theorem writeRegister_status (a : Byte) (v : Word64) (s : State) :
    (a = 0x11#8 ∧ writeRegister a v s = clearStatus v s) ∨ ∃ e, (writeRegister a v s).status = s.status ||| e := by
  obtain ⟨hreg, heq⟩ | ⟨r, s', -, -, -, heq⟩ | ⟨r, s', -, hw, -, heq⟩ | heq := writeRegister_cases a v s <;> rw [heq]
  · exact .inl ⟨(regAt_eq_some_iff.mp hreg).symm, rfl⟩
  · exact .inr ⟨0x10#8, rfl⟩
  · refine .inr ⟨0#8, ?_⟩
    rw [BitVec.or_zero]
    obtain rfl | rfl | rfl | rfl | rfl := writeConfig_cases hw <;> rfl
  · exact .inr ⟨0x20#8, rfl⟩

/-- A bit that a clearing write clears was written as one. -/
theorem clearStatus_clears {v : Word64} {s : State} {k : Nat} (hset : s.status.getLsbD k = true)
    (hclear : (clearStatus v s).status.getLsbD k = false) : v.getLsbD k = true := by
  have hk : k < 8 := BitVec.lt_of_getLsbD hset
  rw [clearStatus_status, BitVec.getLsbD_and, BitVec.getLsbD_not, BitVec.getLsbD_setWidth] at hclear
  simpa [hset, hk] using hclear

/-- Settles O21: every other thing that acts leaves STATUS or raises in it. -/
theorem statusBitsAreSticky : Obligations.StatusBitsAreSticky := by
  unfold Obligations.StatusBitsAreSticky
  intro s s' k h hset hclear
  obtain ⟨u, hu, hcase⟩ := step_cases h
  rw [← hu.status] at hset
  have raises (hraise : ∃ e, s'.status = u.status ||| e) : False := by
    obtain ⟨e, he⟩ := hraise
    rw [he, BitVec.getLsbD_or, hset] at hclear
    cases hclear
  have keeps (hsame : s'.status = u.status) : False := raises ⟨0#8, by rw [BitVec.or_zero, hsame]⟩
  obtain rfl | ⟨-, rfl⟩ | ⟨-, rfl⟩ | ⟨a, v, hissues, rfl⟩ | ⟨_, _, e, _, _, rfl⟩ | ⟨n, -, hrx⟩ | ⟨-, hstep⟩ |
    ⟨hreset, -⟩ := hcase
  · exact (keeps rfl).elim
  · obtain ⟨_, e, _, _, _, _, _, _, _, _, _, _, _, heq⟩ := armEffect_frame u
    exact (raises ⟨e, by rw [heq]⟩).elim
  · obtain ⟨_, e, _, _, _, _, _, _, heq⟩ := abortEffect_frame u
    exact (raises ⟨e, by rw [heq]⟩).elim
  · obtain ⟨rfl, heq⟩ | hraise := writeRegister_status a v u
    · rw [heq] at hclear
      exact .inr ⟨v, hissues, clearStatus_clears hset hclear⟩
    · exact (raises hraise).elim
  · exact (raises ⟨e, rfl⟩).elim
  · obtain ⟨_, _, _, e, _, rfl, -⟩ := rxReady_frame hrx
    exact (raises ⟨e, rfl⟩).elim
  · obtain ⟨-, -, rfl⟩ | ⟨-, rfl⟩ | ⟨-, _, _, _, _, _, _, rfl⟩ | ⟨-, _, _, rfl⟩ | ⟨-, -, _, _, rfl⟩ :=
      internalStep_frame hstep
    · exact (keeps rfl).elim
    · exact (raises ⟨_, takeException_status .allocFail u⟩).elim
    · exact (keeps rfl).elim
    · exact (keeps rfl).elim
    · exact (keeps rfl).elim
  · exact .inl hreset

/-! ### STATE -/

/-- How ARM moves STATE. -/
theorem armEffect_state (s : State) :
    (armEffect s).state = s.state ∨
    ((s.state = .idle ∨ s.state = .done) ∧ ((armEffect s).state = .done ∨ (armEffect s).state = .accumulating)) := by
  have idle (ha : s.active = false) : s.state = .idle ∨ s.state = .done :=
    (not_active_iff s).mp (Bool.not_eq_true _ ▸ ha)
  obtain ⟨-, h⟩ | ⟨-, -, h⟩ | ⟨ha, -, -, h⟩ | ⟨ha, -, -, h⟩ := armEffect_cases s <;> rw [h]
  · exact .inl rfl
  · exact .inl rfl
  · exact .inr ⟨idle ha, .inl rfl⟩
  · exact .inr ⟨idle ha, .inr rfl⟩

/-- Settles O40: STATE moves in ARM, ABORT, RX_READY, the decoder's turn and a reset alone, each along its own edges. -/
theorem stateMovesOnlyAlongItsEdges : Obligations.StateMovesOnlyAlongItsEdges := by
  unfold Obligations.StateMovesOnlyAlongItsEdges
  intro s s' h hmoves
  obtain ⟨u, hu, hcase⟩ := step_cases h
  rw [← hu.state] at hmoves ⊢
  rw [← hu.delivPhase]
  obtain rfl | ⟨hissues, rfl⟩ | ⟨hissues, rfl⟩ | ⟨a, v, -, rfl⟩ | ⟨_, _, _, _, _, rfl⟩ | ⟨n, hturn, hrx⟩ | ⟨hturn, hstep⟩ |
    ⟨hturn, rfl⟩ := hcase
  · exact absurd rfl hmoves
  · obtain heq | ⟨hidle | hdone, hto | hto⟩ := armEffect_state u
    · exact absurd heq hmoves
    · exact .inr (.inr (.inl ⟨hidle, hto, hissues⟩))
    · exact .inr (.inl ⟨.inl hidle, hto, hissues⟩)
    · exact absurd (hto.trans hdone.symm) hmoves
    · exact .inr (.inl ⟨.inr hdone, hto, hissues⟩)
  · obtain ⟨hfrom, heq⟩ | ⟨-, heq⟩ := abortEffect_cases u
    · exact .inr (.inr (.inr (.inr (.inl ⟨hfrom, by rw [heq]; rfl, hissues⟩))))
    · exact absurd (by rw [heq]; rfl) hmoves
  · obtain ⟨_, _, _, _, _, _, heq⟩ := writeRegister_frame a v u
    exact absurd (by rw [heq]) hmoves
  · exact absurd rfl hmoves
  · obtain ⟨_, _, _, _, state, rfl, rfl | ⟨hacc, hdec⟩⟩ := rxReady_frame hrx
    · exact absurd rfl hmoves
    · exact .inr (.inr (.inr (.inl ⟨hacc, hdec, n, hturn⟩)))
  · obtain ⟨-, -, rfl⟩ | ⟨hdec, rfl⟩ | ⟨hdec, _, _, _, _, _, _, rfl⟩ | ⟨-, _, _, rfl⟩ | ⟨hdel, hpost, _, _, rfl⟩ :=
      internalStep_frame hstep
    · exact absurd rfl hmoves
    · exact .inr (.inr (.inr (.inr (.inr (.inl ⟨hdec, .inr rfl, hturn⟩)))))
    · exact .inr (.inr (.inr (.inr (.inr (.inl ⟨hdec, .inl rfl, hturn⟩)))))
    · exact absurd rfl hmoves
    · exact .inr (.inr (.inr (.inr (.inr (.inr ⟨hdel, rfl, hturn, hpost⟩)))))
  · exact .inl ⟨rfl, hturn⟩

/-! ### Entering DONE -/

/-- What is seen in `t` after a step from `s` that has performed the DONE entry actions (43_rlc_decoder.md R224). -/
structure State.DoneEntered (s t : State) : Prop where
  rxEn : t.rxEn = false
  released : ∀ a, Store.read t.rawbuf a = none ∧ Store.read t.rpt a = none ∧ Store.read t.outbuf a = none
  epoch : t.epoch = s.epoch + 1
  sink : ∃ evs, t.sink = s.sink ++ evs ++ [.endOfAcquisition] ∧ .endOfAcquisition ∉ evs
  delayRaw : t.delayRaw =
    if s.active = true then s.delayRaw else (s.limitSamples.toNat - 1) * s.captureRatio.toNat / 100
  counters : s.active = true →
    t.totalSamples = s.totalSamples ∧ t.delayValue = s.delayValue ∧ t.transferredBytes = s.transferredBytes

theorem State.SameBlock.doneEntered {s u t : State} (hu : s.SameBlock u) (h : u.DoneEntered t) : s.DoneEntered t := by
  obtain ⟨_, _, _, _, _, rfl⟩ := hu
  obtain ⟨hrxEn, hreleased, hepoch, hsink, hraw, hcounters⟩ := h
  exact ⟨hrxEn, hreleased, hepoch, hsink, hraw, hcounters⟩

/-- A fatal exception in an active acquisition ends it. -/
theorem doneEntered_takeException {e : BlockException} (he : e.fatal = true) {s : State} (h : s.active = true) :
    s.DoneEntered (takeException e s) := by
  rw [takeException, if_pos he]
  exact ⟨rfl, fun _ => ⟨rfl, rfl, rfl⟩, rfl, ⟨[], by rw [List.append_nil]; rfl, List.not_mem_nil⟩, (if_pos h).symm,
    fun _ => ⟨rfl, rfl, rfl⟩⟩

/-- An ARM whose budget does not fit has latched the delay. -/
theorem doneEntered_armLatch {s : State} (h : ¬ s.active = true) : s.DoneEntered (takeException .allocFail (armLatch s)) :=
  ⟨rfl, fun _ => ⟨rfl, rfl, rfl⟩, rfl, ⟨[], by rw [List.append_nil]; rfl, List.not_mem_nil⟩, (if_neg h).symm,
    fun hactive => absurd hactive h⟩

/-- The last delivery step ends the acquisition after its LOGIC event. -/
theorem doneEntered_enterDone_logic {s : State} (h : s.active = true) (bytes : List Byte) (unitsize : Nat) :
    s.DoneEntered (enterDone (sinkEvent (.logic bytes unitsize) s)) :=
  ⟨rfl, fun _ => ⟨rfl, rfl, rfl⟩, rfl, ⟨[.logic bytes unitsize], rfl, by simp⟩, (if_pos h).symm,
    fun _ => ⟨rfl, rfl, rfl⟩⟩

/-- Settles O25: an ARM without capacity, an ABORT, a DECODE that does not fit and the last delivery step enter DONE,
all through the entry actions. -/
theorem everyEntryIntoDonePerformsItsActions : Obligations.EveryEntryIntoDonePerformsItsActions := by
  unfold Obligations.EveryEntryIntoDonePerformsItsActions
  intro s s' h hfrom hto
  suffices hdone : s.DoneEntered s' by
    obtain ⟨hrxEn, hreleased, hepoch, hsink, hraw, hcounters⟩ := hdone
    exact ⟨hrxEn, hreleased, hepoch, hsink, hraw, hcounters⟩
  obtain ⟨u, hu, hcase⟩ := step_cases h
  apply hu.doneEntered
  rw [← hu.state] at hfrom
  have stays {t : State} (ht : t.state = .done) (heq : t.state = u.state) : u.DoneEntered t :=
    absurd (heq.symm.trans ht) hfrom
  obtain rfl | ⟨-, rfl⟩ | ⟨-, rfl⟩ | ⟨a, v, -, rfl⟩ | ⟨_, _, _, _, _, rfl⟩ | ⟨n, -, hrx⟩ | ⟨-, hstep⟩ | ⟨-, rfl⟩ := hcase
  · exact stays hto rfl
  · obtain ⟨-, heq⟩ | ⟨-, -, heq⟩ | ⟨hidle, -, -, heq⟩ | ⟨-, -, -, heq⟩ := armEffect_cases u <;> rw [heq] at hto ⊢
    · exact stays hto rfl
    · exact stays hto rfl
    · exact doneEntered_armLatch (by simp [hidle])
    · cases hto
  · obtain ⟨hst, heq⟩ | ⟨-, heq⟩ := abortEffect_cases u <;> rw [heq] at hto ⊢
    · exact doneEntered_takeException rfl ((active_iff u).mpr (hst.imp_right .inl))
    · exact stays hto rfl
  · obtain ⟨_, _, _, _, _, _, heq⟩ := writeRegister_frame a v u
    rw [heq] at hto ⊢
    exact stays hto rfl
  · exact stays hto rfl
  · obtain ⟨_, _, _, _, state, rfl, rfl | ⟨-, rfl⟩⟩ := rxReady_frame hrx
    · exact stays hto rfl
    · cases hto
  · obtain ⟨-, -, rfl⟩ | ⟨hdec, rfl⟩ | ⟨-, _, _, _, _, _, _, rfl⟩ | ⟨-, _, _, rfl⟩ | ⟨hdel, -, _, _, rfl⟩ :=
      internalStep_frame hstep
    · exact stays hto rfl
    · exact doneEntered_takeException rfl ((active_iff u).mpr (.inr (.inl hdec)))
    · cases hto
    · exact stays hto rfl
    · exact doneEntered_enterDone_logic ((active_iff u).mpr (.inr (.inr hdel))) _ _
  · cases hto

/-! ### The configuration and the results -/

/-- While an acquisition is active a WRITE_REG does nothing but clear or raise in STATUS. -/
theorem writeRegister_of_active {s : State} (h : s.active = true) (a : Byte) (v : Word64) :
    ∃ status, writeRegister a v s = { s with status := status } := by
  obtain ⟨-, heq⟩ | ⟨r, s', -, -, -, heq⟩ | ⟨r, s', -, -, hidle, -⟩ | heq := writeRegister_cases a v s
  · exact ⟨_, heq⟩
  · exact ⟨_, heq⟩
  · rw [h] at hidle
    cases hidle
  · exact ⟨_, heq⟩

/-- Settles O41: only WRITE_REG and a reset write the configuration, and the write is locked. -/
theorem configurationIsConstantDuringAnAcquisition : Obligations.ConfigurationIsConstantDuringAnAcquisition := by
  unfold Obligations.ConfigurationIsConstantDuringAnAcquisition
  intro s s' h
  obtain ⟨u, hu, hcase⟩ := step_cases h
  rw [← hu.params, ← hu.state, ← active_iff, ← hu.dataWidth, ← hu.addrWidth, ← hu.rlcWidth, ← hu.limitSamples,
    ← hu.captureRatio]
  obtain rfl | ⟨-, rfl⟩ | ⟨-, rfl⟩ | ⟨a, v, -, rfl⟩ | ⟨_, _, _, _, _, rfl⟩ | ⟨n, -, hrx⟩ | ⟨-, hstep⟩ |
    ⟨hreset, rfl⟩ := hcase
  · exact ⟨rfl, fun _ _ => ⟨rfl, rfl, rfl, rfl, rfl⟩⟩
  · obtain ⟨_, _, _, _, _, _, _, _, _, _, _, _, _, heq⟩ := armEffect_frame u
    rw [heq]
    exact ⟨rfl, fun _ _ => ⟨rfl, rfl, rfl, rfl, rfl⟩⟩
  · obtain ⟨_, _, _, _, _, _, _, _, heq⟩ := abortEffect_frame u
    rw [heq]
    exact ⟨rfl, fun _ _ => ⟨rfl, rfl, rfl, rfl, rfl⟩⟩
  · constructor
    · obtain ⟨_, _, _, _, _, _, heq⟩ := writeRegister_frame a v u
      rw [heq]
    · intro hactive _
      obtain ⟨status, heq⟩ := writeRegister_of_active hactive a v
      rw [heq]
      exact ⟨rfl, rfl, rfl, rfl, rfl⟩
  · exact ⟨rfl, fun _ _ => ⟨rfl, rfl, rfl, rfl, rfl⟩⟩
  · obtain ⟨_, _, _, _, _, rfl, -⟩ := rxReady_frame hrx
    exact ⟨rfl, fun _ _ => ⟨rfl, rfl, rfl, rfl, rfl⟩⟩
  · obtain ⟨-, -, rfl⟩ | ⟨-, rfl⟩ | ⟨-, _, _, _, _, _, _, rfl⟩ | ⟨-, _, _, rfl⟩ | ⟨-, -, _, _, rfl⟩ :=
      internalStep_frame hstep <;> exact ⟨rfl, fun _ _ => ⟨rfl, rfl, rfl, rfl, rfl⟩⟩
  · exact ⟨rfl, fun _ hno => absurd hreset hno⟩

/-- The four results of an acquisition (43_rlc_decoder.md R224; 70_reset_and_hazards.md R302) are as they were. -/
def State.SameResults (s t : State) : Prop :=
  t.totalSamples = s.totalSamples ∧ t.delayRaw = s.delayRaw ∧ t.delayValue = s.delayValue ∧
    t.transferredBytes = s.transferredBytes

theorem State.SameBlock.sameResults {s u t : State} (hu : s.SameBlock u) (h : u.SameResults t) : s.SameResults t := by
  obtain ⟨_, _, _, _, _, rfl⟩ := hu
  exact h

/-- Settles O42: in DONE an ABORT is illegal, RX_READY and the decoder's turn are not enabled, and nothing else but
ARM and a reset touches the results. -/
theorem resultsLiveUntilTheNextArm : Obligations.ResultsLiveUntilTheNextArm := by
  unfold Obligations.ResultsLiveUntilTheNextArm
  intro s s' h hdone harm hreset
  obtain ⟨u, hu, hcase⟩ := step_cases h
  rw [← hu.state] at hdone
  refine (?_ : s'.state = .done ∧ u.SameResults s').imp_right hu.sameResults
  obtain rfl | ⟨hissues, -⟩ | ⟨-, rfl⟩ | ⟨a, v, -, rfl⟩ | ⟨_, _, _, _, _, rfl⟩ | ⟨n, -, hrx⟩ | ⟨-, hstep⟩ | ⟨hturn, -⟩ :=
    hcase
  · exact ⟨hdone, rfl, rfl, rfl, rfl⟩
  · exact absurd hissues harm
  · obtain ⟨hst, -⟩ | ⟨-, heq⟩ := abortEffect_cases u
    · simp [hdone] at hst
    · rw [heq]
      exact ⟨hdone, rfl, rfl, rfl, rfl⟩
  · obtain ⟨_, _, _, _, _, _, heq⟩ := writeRegister_frame a v u
    rw [heq]
    exact ⟨hdone, rfl, rfl, rfl, rfl⟩
  · exact ⟨hdone, rfl, rfl, rfl, rfl⟩
  · obtain ⟨-, rfl⟩ | ⟨⟨hacc, -⟩, -, -⟩ := rxReady_cases hrx
    · exact ⟨hdone, rfl, rfl, rfl, rfl⟩
    · simp [hdone] at hacc
  · obtain ⟨-, -, rfl⟩ | ⟨hdec, -⟩ | ⟨hdel, -⟩ := internalStep_cases hstep
    · exact ⟨hdone, rfl, rfl, rfl, rfl⟩
    · simp [hdone] at hdec
    · simp [hdone] at hdel
  · exact absurd hturn hreset

/-- Settles O43: the reset gives the block the fields of `State.reset` and keeps the streams. -/
theorem resetInputGivesTheResetValuesAndEmitsNothing : Obligations.ResetInputGivesTheResetValuesAndEmitsNothing := by
  unfold Obligations.ResetInputGivesTheResetValuesAndEmitsNothing
  intro s
  exact ⟨resetBlock s, rfl, ⟨rfl, rfl, rfl, rfl, rfl, rfl, rfl, rfl, rfl, rfl, rfl, rfl, rfl, rfl⟩,
    fun _ => ⟨rfl, rfl, rfl⟩, rfl, rfl, rfl, rfl⟩

/-! ### The two halves (20_memory.md R82) -/

/-- From `s` to `t` and from `u` to `v` the framer has sent the same bytes, reported the same failures and used the
same answers. -/
structure State.SendAlike (s u t v : State) : Prop where
  sent : ∃ w, t.tx = s.tx ++ w ∧ v.tx = u.tx ++ w
  raised : ∃ e, t.status = s.status ||| e ∧ v.status = u.status ||| e
  answers : t.answers = v.answers
  draws : t.draws = v.draws

theorem State.SendAlike.trans {s u t v t' v' : State} (h : State.SendAlike s u t v) (h' : State.SendAlike t v t' v') :
    State.SendAlike s u t' v' := by
  obtain ⟨⟨w, htx, hvx⟩, ⟨e, ht, hv⟩, -, -⟩ := h
  obtain ⟨⟨w', htx', hvx'⟩, ⟨e', ht', hv'⟩, hanswers, hdraws⟩ := h'
  exact ⟨⟨w ++ w', by rw [htx', htx, List.append_assoc], by rw [hvx', hvx, List.append_assoc]⟩,
    ⟨e ||| e', by rw [ht', ht, BitVec.or_assoc], by rw [hv', hv, BitVec.or_assoc]⟩, hanswers, hdraws⟩

/-- One write does the same in two states with the same answers to come. -/
theorem txWrite_alike (b : Byte) {s u : State} (hanswers : s.answers = u.answers) (hdraws : s.draws = u.draws) :
    State.SendAlike s u (txWrite b s) (txWrite b u) := by
  have same : txAnswer s = txAnswer u := by rw [txAnswer, txAnswer, hanswers, hdraws]
  refine ⟨?_, ?_, by simp [hanswers], by simp [hdraws]⟩
  · rw [txWrite_tx, txWrite_tx, same]
    split
    · exact ⟨[b], rfl, rfl⟩
    · exact ⟨[], by simp, by simp⟩
  · rw [txWrite_status, txWrite_status, same]
    split
    · exact ⟨0#8, by simp, by simp⟩
    · exact ⟨1#8, rfl, rfl⟩

theorem sendPayload_alike (b : Byte) {s u : State} (hanswers : s.answers = u.answers) (hdraws : s.draws = u.draws) :
    State.SendAlike s u (sendPayload b s) (sendPayload b u) := by
  rw [sendPayload_eq, sendPayload_eq]
  split
  · have first := txWrite_alike 0x55#8 hanswers hdraws
    exact first.trans (txWrite_alike b first.answers first.draws)
  · exact txWrite_alike b hanswers hdraws

/-- An instruction that sends does the same in two states with the same answers to come. -/
theorem exec_alike {i : Instr} {s u t v : State} (hi : wireOf i ≠ []) (hanswers : s.answers = u.answers)
    (hdraws : s.draws = u.draws) (ht : exec i s = .next t) (hv : exec i u = .next v) : State.SendAlike s u t v := by
  have raw {b : Byte} (hs : exec i s = .next (txWrite b s)) (hu : exec i u = .next (txWrite b u)) :
      State.SendAlike s u t v := by
    rw [← Host.Outcome.next.inj (hs.symm.trans ht), ← Host.Outcome.next.inj (hu.symm.trans hv)]
    exact txWrite_alike b hanswers hdraws
  cases i with
  | nop | arm | abort | writeReg _ _ | readReg _ => exact absurd rfl hi
  | sendEscaped b =>
    rw [← Host.Outcome.next.inj ((exec_sendEscaped b s).symm.trans ht),
      ← Host.Outcome.next.inj ((exec_sendEscaped b u).symm.trans hv)]
    exact sendPayload_alike b hanswers hdraws
  | _ => exact raw rfl rfl

/-- `s` with another history of the framer: what it has sent, which answers it has used, what stands in STATUS. -/
def State.withFramer (tx : List Byte) (answers : List Bool) (draws : Nat) (status : BitVec 8) (s : State) : State :=
  { s with tx := tx, answers := answers, draws := draws, status := status }

/-- `f` does the same to `s` whatever the framer's history, and raises the same bits of STATUS. -/
def IgnoresFramer (f : State → Result) (s : State) : Prop :=
  ∀ t, f s = .next t → ∃ e, t.status = s.status ||| e ∧ ∀ tx answers draws status,
    f (s.withFramer tx answers draws status) = .next (t.withFramer tx answers draws (status ||| e))

/-- It is enough to name the next state and the bits raised. -/
theorem ignoresFramer_of_next {f : State → Result} {s t : State} (e : BitVec 8)
    (h : ∀ tx answers draws status,
      f (s.withFramer tx answers draws status) = .next (t.withFramer tx answers draws (status ||| e))) :
    IgnoresFramer f s := by
  intro t' ht'
  have own : f s = .next (t.withFramer s.tx s.answers s.draws (s.status ||| e)) := h s.tx s.answers s.draws s.status
  obtain rfl : t.withFramer s.tx s.answers s.draws (s.status ||| e) = t' := Host.Outcome.next.inj (own.symm.trans ht')
  exact ⟨e, rfl, h⟩

theorem takeChunk_withFramer (c : List Byte) (tx : List Byte) (answers : List Bool) (draws : Nat) (status : BitVec 8)
    (s : State) :
    takeChunk c (s.withFramer tx answers draws status) =
      (takeChunk c s).withFramer tx answers draws (status ||| if s.roomFor c < c.length then 0x02#8 else 0#8) := by
  rw [takeChunk_eq, takeChunk_eq]
  rfl

theorem rxReady_ignoresFramer (n : Nat) (s : State) : IgnoresFramer (rxReady n) s := by
  intro t ht
  by_cases henabled : s.state = .accumulating ∧ s.rxEn = true
  · rw [rxReady_of_enabled henabled] at ht
    obtain ⟨hspace, ht⟩ := guardSpace_next ht
    obtain rfl := Host.Outcome.next.inj ht
    refine ⟨_, by rw [takeChunk_eq], fun tx answers draws status => ?_⟩
    refine (rxReady_of_enabled (s := s.withFramer tx answers draws status) henabled n).trans
      ((guardSpace_of_inSpace (s := s.withFramer tx answers draws status) _ hspace).trans ?_)
    exact congrArg Host.Outcome.next (takeChunk_withFramer (s.rx.take (chunkSize n s)) tx answers draws status
      { s with rx := s.rx.drop (chunkSize n s) })
  · rw [rxReady_of_not_enabled henabled] at ht
    obtain rfl := Host.Outcome.next.inj ht
    exact ⟨0#8, BitVec.or_zero.symm, fun tx answers draws status => by
      rw [BitVec.or_zero]
      exact rxReady_of_not_enabled (s := s.withFramer tx answers draws status) henabled n⟩

theorem decodeStep_ignoresFramer (s : State) : IgnoresFramer decodeStep s := by
  have fails : ∀ tx answers draws status, takeException .allocFail (s.withFramer tx answers draws status) =
      (takeException .allocFail s).withFramer tx answers draws (status ||| 0x04#8) := fun _ _ _ _ => rfl
  obtain hcw | hcw := Nat.eq_zero_or_pos s.cw
  · refine ignoresFramer_of_next (t := decodePlain s) 0#8 fun tx answers draws status => ?_
    rw [BitVec.or_zero]
    exact decodeStep_of_plain hcw
  · obtain hrpt | hrpt := Nat.lt_or_ge s.params.rptCapacityEntries s.limit
    · refine ignoresFramer_of_next (t := takeException .allocFail s) 0x04#8 fun tx answers draws status => ?_
      rw [← fails]
      exact decodeStep_of_rpt_lt hcw hrpt
    · intro t ht
      obtain ⟨hspace, -⟩ := guardSpace_next ((decodeStep_of_rpt_ge hcw hrpt).symm.trans ht)
      obtain hout | hout := Nat.lt_or_ge s.params.outCapacityBytes (s.repeatCounts.sum * s.dataWidthBytes)
      · refine ignoresFramer_of_next (t := takeException .allocFail s) 0x04#8 (fun tx answers draws status => ?_) t ht
        rw [← fails]
        exact (decodeStep_of_rpt_ge (s := s.withFramer tx answers draws status) hcw hrpt).trans
          ((guardSpace_of_inSpace (s := s.withFramer tx answers draws status) _ hspace).trans (if_pos hout))
      · refine ignoresFramer_of_next (t := decodeExpanded s) 0#8 (fun tx answers draws status => ?_) t ht
        rw [BitVec.or_zero]
        exact (decodeStep_of_rpt_ge (s := s.withFramer tx answers draws status) hcw hrpt).trans
          ((guardSpace_of_inSpace (s := s.withFramer tx answers draws status) _ hspace).trans (if_neg hout.not_gt))

theorem deliverStep_ignoresFramer (s : State) : IgnoresFramer deliverStep s := by
  intro t ht
  cases hphase : s.delivPhase with
  | pre =>
    obtain ⟨hspace, -⟩ := guardSpace_next ((deliverStep_of_pre hphase).symm.trans ht)
    refine ignoresFramer_of_next
      (t := { sinkEvent (logicEvent 0 s.delayValue s) s with delivPhase := .trig }) 0#8
      (fun tx answers draws status => ?_) t ht
    rw [BitVec.or_zero]
    exact (deliverStep_of_pre (s := s.withFramer tx answers draws status) hphase).trans
      (guardSpace_of_inSpace (s := s.withFramer tx answers draws status) _ hspace)
  | trig =>
    refine ignoresFramer_of_next (t := { sinkEvent .trigger s with delivPhase := .post }) 0#8 (fun _ _ _ _ => ?_) t ht
    rw [BitVec.or_zero]
    exact deliverStep_of_trig hphase
  | post =>
    obtain ⟨hspace, -⟩ := guardSpace_next ((deliverStep_of_post hphase).symm.trans ht)
    refine ignoresFramer_of_next
      (t := enterDone (sinkEvent (logicEvent s.delayValue (s.totalSamples - s.delayValue) s) s)) 0#8
      (fun tx answers draws status => ?_) t ht
    rw [BitVec.or_zero]
    exact (deliverStep_of_post (s := s.withFramer tx answers draws status) hphase).trans
      (guardSpace_of_inSpace (s := s.withFramer tx answers draws status) _ hspace)

theorem internalStep_ignoresFramer (s : State) : IgnoresFramer internalStep s := by
  by_cases hdec : s.state = .decoding
  · intro t ht
    obtain ⟨e, hstatus, h⟩ := decodeStep_ignoresFramer s t ((internalStep_of_decoding hdec).symm.trans ht)
    exact ⟨e, hstatus, fun tx answers draws status =>
      (internalStep_of_decoding (s := s.withFramer tx answers draws status) hdec).trans (h tx answers draws status)⟩
  by_cases hdel : s.state = .delivering
  · intro t ht
    obtain ⟨e, hstatus, h⟩ := deliverStep_ignoresFramer s t ((internalStep_of_delivering hdel).symm.trans ht)
    exact ⟨e, hstatus, fun tx answers draws status =>
      (internalStep_of_delivering (s := s.withFramer tx answers draws status) hdel).trans (h tx answers draws status)⟩
  · refine ignoresFramer_of_next (t := s) 0#8 fun tx answers draws status => ?_
    rw [BitVec.or_zero]
    exact internalStep_of_passing hdec hdel

/-- Settles O45: the framer's writes look at the answers alone, and no step of the RX half looks at what the framer
changes. -/
theorem theTwoHalvesAreIndependent : Obligations.TheTwoHalvesAreIndependent := by
  unfold Obligations.TheTwoHalvesAreIndependent
  constructor
  · intro i s u t v hi hanswers hdraws ht hv
    have alike := exec_alike hi hanswers hdraws ht hv
    exact ⟨alike.sent, alike.raised⟩
  · rintro turn s t (rfl | ⟨n, rfl⟩) ht
    · exact internalStep_ignoresFramer s t ht
    · exact rxReady_ignoresFramer n s t ht

end Sys2Proof.Machine
end

section
/-! Raw samples and payloads as numbers (20_memory.md R67; 30_encoding.md R100 to R104): the bits of a byte string,
the low bytes that hold a repeat count, and the bit window that holds a payload. -/

namespace Sys2Proof.Machine

/-! ### The bits of a byte string -/

/-- Bit `m` of the number that bytes stand for is bit `m % 8` of byte `m / 8`, and past the end there is none. -/
theorem testBit_le (bs : List Byte) (m : Nat) : (le bs).testBit m = (bs[m / 8]?.getD 0#8).getLsbD (m % 8) := by
  induction bs generalizing m with
  | nil => simp [le]
  | cons b bs ih =>
    have hsplit : le (b :: bs) = 2 ^ 8 * le bs + b.toNat := by
      rw [le]
      omega
    rw [hsplit, Nat.testBit_two_pow_mul_add _ b.isLt]
    split
    · rw [Nat.div_eq_of_lt ‹_›, Nat.mod_eq_of_lt ‹_›]
      rfl
    · have hdiv : m / 8 = (m - 8) / 8 + 1 := by omega
      have hmod : m % 8 = (m - 8) % 8 := by omega
      rw [ih, hdiv, hmod, List.getElem?_cons_succ]

/-- The low bytes of a number are the number mod a power of 256. -/
theorem le_take (n : Nat) (bs : List Byte) : le (bs.take n) = le bs % 2 ^ (8 * n) := by
  induction n generalizing bs with
  | zero => simp [le, Nat.mod_one]
  | succ n ih =>
    cases bs with
    | nil => simp [le]
    | cons b bs =>
      have hb : b.toNat < 256 := b.isLt
      have hpow : 2 ^ (8 * (n + 1)) = 256 * 2 ^ (8 * n) := by rw [Nat.mul_succ, Nat.add_comm, Nat.pow_add]
      rw [List.take_succ_cons, le, ih, le, hpow, Nat.mod_mul, Nat.add_mul_mod_self_left, Nat.mod_eq_of_lt hb,
        Nat.add_mul_div_left _ _ (by decide), Nat.div_eq_of_lt hb, Nat.zero_add]

/-! ### Repeat counts -/

theorem one_le_repeatsOf (c : Nat) (raw : List Byte) : 1 ≤ repeatsOf c raw := Nat.le_add_left 1 _

theorem repeatsOf_le (c : Nat) (raw : List Byte) : repeatsOf c raw ≤ 2 ^ c := Nat.mod_lt _ (Nat.two_pow_pos c)

/-- Settles O33: the field lies in whole bytes, which a reduction mod a power of 256 keeps. -/
theorem repeatCountComesFromTheLowBytes : Obligations.RepeatCountComesFromTheLowBytes := by
  unfold Obligations.RepeatCountComesFromTheLowBytes
  intro c raw
  refine ⟨rfl, one_le_repeatsOf c raw, repeatsOf_le c raw, ?_⟩
  have hdvd : 2 ^ c ∣ 2 ^ (8 * ((c + 7) / 8)) := Nat.pow_dvd_pow 2 (by omega)
  rw [repeatsOf, repeatsOf, le_take, Nat.mod_mod_of_dvd _ hdvd]

/-! ### Payloads -/

@[simp] theorem length_payloadOf (c d : Nat) (raw : List Byte) (past : Nat → Byte) :
    (payloadOf c d raw past).length = d := by
  rw [payloadOf, List.length_map, List.length_range]

/-- Bit `n` of byte `k` of a payload is the window's bit `c + 8k + n`. -/
theorem getLsbD_payload_byte {c k n : Nat} (hn : n < 8) (raw : List Byte) (past : Nat → Byte) :
    (if c % 8 = 0 then windowByteAt raw past (c / 8 + k)
      else windowByteAt raw past (c / 8 + k) >>> (c % 8)
        ||| windowByteAt raw past (c / 8 + k + 1) <<< (8 - c % 8)).getLsbD n =
      (windowByteAt raw past ((c + (8 * k + n)) / 8)).getLsbD ((c + (8 * k + n)) % 8) := by
  split
  · have hdiv : (c + (8 * k + n)) / 8 = c / 8 + k := by omega
    have hmod : (c + (8 * k + n)) % 8 = n := by omega
    rw [hdiv, hmod]
  · rw [BitVec.getLsbD_or, BitVec.getLsbD_ushiftRight, BitVec.getLsbD_shiftLeft]
    by_cases hlow : c % 8 + n < 8
    · have hdiv : (c + (8 * k + n)) / 8 = c / 8 + k := by omega
      have hmod : (c + (8 * k + n)) % 8 = c % 8 + n := by omega
      have hout : n < 8 - c % 8 := by omega
      rw [hdiv, hmod]
      simp [hout]
    · have hdiv : (c + (8 * k + n)) / 8 = c / 8 + k + 1 := by omega
      have hmod : (c + (8 * k + n)) % 8 = n - (8 - c % 8) := by omega
      have hin : ¬ n < 8 - c % 8 := by omega
      have hgone : (windowByteAt raw past (c / 8 + k)).getLsbD (c % 8 + n) = false := BitVec.getLsbD_of_ge _ _ (by omega)
      rw [hdiv, hmod, hgone]
      simp [hin, hn]

/-- Inside the raw sample the window is the sample, whatever the bytes past its end are. -/
theorem windowByteAt_of_lt {raw : List Byte} {j : Nat} (h : j < raw.length) (past : Nat → Byte) :
    windowByteAt raw past j = raw[j] := by
  rw [windowByteAt, List.getElem?_eq_getElem h, Option.getD_some]

/-- A payload's bits are the window's, from bit `c` on. -/
theorem testBit_le_payloadOf {c d m : Nat} (hm : m < 8 * d) (raw : List Byte) (past : Nat → Byte) :
    (le (payloadOf c d raw past)).testBit m = (windowByteAt raw past ((c + m) / 8)).getLsbD ((c + m) % 8) := by
  have hk : m / 8 < d := by omega
  have hbit := getLsbD_payload_byte (c := c) (k := m / 8) (n := m % 8) (by omega) raw past
  rw [Nat.div_add_mod] at hbit
  rw [testBit_le, ← hbit, payloadOf, List.getElem?_map, List.getElem?_range hk]
  rfl

/-- Settles O32: every channel bit lies in a byte of the sample, and without a shift the window's bytes are the
sample's. -/
theorem payloadHoldsTheChannelBits : Obligations.PayloadHoldsTheChannelBits := by
  unfold Obligations.PayloadHoldsTheChannelBits
  intro dw c raw past hraw
  constructor
  · intro m hm
    have hbyte : (c + m) / 8 < raw.length := by omega
    rw [testBit_le_payloadOf (by omega), windowByteAt_of_lt hbyte, testBit_le, List.getElem?_eq_getElem hbyte,
      Option.getD_some]
  · intro hc
    apply List.ext_getElem
    · rw [length_payloadOf, List.length_drop]
      omega
    · intro k hk hk'
      rw [length_payloadOf] at hk
      have hbyte : c / 8 + k < raw.length := by omega
      simp only [payloadOf, hc, if_true, List.getElem_map, List.getElem_range, List.getElem_drop]
      exact windowByteAt_of_lt hbyte past

/-! ### Copies -/

/-- Byte `k` of the `j`-th copy of a block. -/
theorem getElem?_flatten_replicate {α : Type} {n j k : Nat} {p : List α} (hj : j < n) (hk : k < p.length) :
    (List.replicate n p).flatten[j * p.length + k]? = p[k]? := by
  induction n generalizing j with
  | zero => omega
  | succ n ih =>
    rw [List.replicate_succ, List.flatten_cons]
    cases j with
    | zero => rw [Nat.zero_mul, Nat.zero_add, List.getElem?_append_left hk]
    | succ j =>
      have hindex : (j + 1) * p.length + k = p.length + (j * p.length + k) := by
        rw [Nat.succ_mul]
        omega
      rw [hindex, List.getElem?_append_right (Nat.le_add_right _ _), Nat.add_sub_cancel_left, ih (by omega)]

/-- The length of blocks of `d` items each, block `i` in `rep i` copies. -/
theorem length_flatMap_replicate {α : Type} {d : Nat} {p : Nat → List α} (hp : ∀ i, (p i).length = d) (rep : Nat → Nat)
    (is : List Nat) :
    (is.flatMap fun i => (List.replicate (rep i) (p i)).flatten).length = (is.map rep).sum * d := by
  induction is with
  | nil => simp
  | cons i is ih =>
    rw [List.flatMap_cons, List.length_append, ih, List.length_flatten, List.map_replicate, List.sum_replicate, hp,
      List.map_cons, List.sum_cons, Nat.add_mul]
    rfl

/-- Item `k` of the `j`-th copy of block `i`, with the blocks before it in their copies. -/
theorem getElem?_flatMap_replicate {α : Type} {d l i j k : Nat} {p : Nat → List α} (hp : ∀ i, (p i).length = d)
    {rep : Nat → Nat} (hi : i < l) (hj : j < rep i) (hk : k < d) :
    ((List.range l).flatMap fun i => (List.replicate (rep i) (p i)).flatten)[
      (((List.range i).map rep).sum + j) * d + k]? = (p i)[k]? := by
  obtain ⟨m, rfl⟩ := Nat.exists_eq_add_of_lt hi
  have hrange : List.range (i + m + 1) = List.range i ++ i :: (List.range m).map (i + 1 + ·) := by
    rw [Nat.add_assoc, List.range_add, List.range_succ_eq_map, List.map_cons, List.map_map]
    congr 2
    exact List.map_congr_left fun x _ => by simp only [Function.comp]; omega
  have hbefore := length_flatMap_replicate hp rep (List.range i)
  have hindex : (((List.range i).map rep).sum + j) * d + k =
      ((List.range i).flatMap fun i => (List.replicate (rep i) (p i)).flatten).length + (j * (p i).length + k) := by
    rw [hbefore, hp, Nat.add_mul, Nat.add_assoc]
  have hinside : j * (p i).length + k < (List.replicate (rep i) (p i)).flatten.length := by
    have hcopies : (j + 1) * d ≤ rep i * d := Nat.mul_le_mul_right d hj
    rw [Nat.succ_mul] at hcopies
    rw [List.length_flatten, List.map_replicate, List.sum_replicate, hp, smul_eq_mul]
    omega
  rw [hindex, hrange, List.flatMap_append, List.getElem?_append_right (Nat.le_add_right _ _), Nat.add_sub_cancel_left,
    List.flatMap_cons, List.getElem?_append_left hinside, getElem?_flatten_replicate hj (by rw [hp]; exact hk)]

end Sys2Proof.Machine
end

section
/-! The decoder's steps, one by one (43_rlc_decoder.md R216 to R220), and the canonical form of the storage. -/

namespace Sys2Proof.Machine

/-! ### Canonical stores -/

/-- Below its first address a store lists nothing. -/
theorem Store.read_eq_none_of_lt {α : Type} {m : Store α} {a : Nat} (h : ∀ e ∈ m, a < e.1) : Store.read m a = none := by
  cases hr : Store.read m a with
  | none => rfl
  | some v => exact absurd (h _ (Store.mem_of_read hr)) (Nat.lt_irrefl a)

/-- A store in canonical form has nothing at its first address or below in its tail. -/
theorem Store.read_tail_eq_none {α : Type} {k a : Nat} {v : α} {m : Store α} (h : Store.wf ((k, v) :: m)) (ha : a ≤ k) :
    Store.read m a = none :=
  Store.read_eq_none_of_lt fun _ he => Nat.lt_of_le_of_lt ha (List.rel_of_pairwise_cons h he)

theorem Store.read_cons {α : Type} (k a : Nat) (v : α) (m : Store α) :
    Store.read ((k, v) :: m) a = if k = a then some v else if a < k then none else Store.read m a := rfl

/-- The first address of a store in canonical form is the least address that has a value. -/
theorem Store.head_le_of_read_eq {α : Type} {k l : Nat} {v w : α} {m n : Store α}
    (h : Store.read ((k, v) :: m) k = Store.read ((l, w) :: n) k) : l ≤ k := by
  by_contra hlt
  rw [Store.read_cons, if_pos rfl, Store.read_cons, if_neg (by omega), if_pos (by omega)] at h
  cases h

/-- Two stores in canonical form that read the same at every address are the same list. -/
theorem Store.eq_of_read_eq {α : Type} {m n : Store α} (hm : Store.wf m) (hn : Store.wf n)
    (h : ∀ a, Store.read m a = Store.read n a) : m = n := by
  induction m generalizing n with
  | nil =>
    cases n with
    | nil => rfl
    | cons e n =>
      have hread := h e.1
      rw [Store.read_nil, Store.read_cons, if_pos rfl] at hread
      cases hread
  | cons e m ih =>
    obtain ⟨k, v⟩ := e
    cases n with
    | nil =>
      have hread := h k
      rw [Store.read_nil, Store.read_cons, if_pos rfl] at hread
      cases hread
    | cons e n =>
      obtain ⟨l, w⟩ := e
      obtain rfl : k = l := Nat.le_antisymm (Store.head_le_of_read_eq (h l).symm) (Store.head_le_of_read_eq (h k))
      have hvalue := h k
      rw [Store.read_cons, if_pos rfl, Store.read_cons, if_pos rfl] at hvalue
      obtain rfl := Option.some.inj hvalue
      refine congrArg _ (ih (List.Pairwise.of_cons hm) (List.Pairwise.of_cons hn) fun a => ?_)
      by_cases ha : a ≤ k
      · rw [Store.read_tail_eq_none hm ha, Store.read_tail_eq_none hn ha]
      · have hread := h a
        rwa [Store.read_cons, if_neg (by omega), if_neg (by omega), Store.read_cons, if_neg (by omega),
          if_neg (by omega)] at hread

/-- Settles O46: the first addresses and values agree, and so do the tails. -/
theorem canonicalStoresAreDeterminedByTheirReads : Obligations.CanonicalStoresAreDeterminedByTheirReads := by
  unfold Obligations.CanonicalStoresAreDeterminedByTheirReads
  intro m n hm hn h
  exact Store.eq_of_read_eq hm hn h

/-! ### RX_READY -/

/-- A chunk that neither the link nor the block cuts down. -/
theorem chunkSize_of_le {n : Nat} {s : State} (hmax : n ≤ s.params.chunkMax) (hrx : n ≤ s.rx.length) :
    chunkSize n s = n := by
  unfold chunkSize
  omega

/-- Settles O27: the chunk is the first `n` bytes, and the run of writes is `k` bytes long. -/
theorem rxReadyStoresUpToTheBudget : Obligations.RxReadyStoresUpToTheBudget := by
  unfold Obligations.RxReadyStoresUpToTheBudget
  intro n s hmax hrx budget at0 k
  refine ⟨fun h => rxReady_of_not_enabled h n, fun hacc hrxEn hle hfits => ?_⟩
  have hchunk := chunkSize_of_le hmax hrx
  have hlen : (s.rx.take n).length = n := List.length_take_of_le hrx
  have hroom : s.roomFor (s.rx.take n) = k := by
    rw [State.roomFor, hlen]
    rfl
  have hkn : k ≤ n := Nat.min_le_left _ _
  have hstored : ((s.rx.take n).take k).length = k := by rw [List.length_take_of_le (by omega)]
  have hspace : k = 0 ∨ s.transferredBytes + k ≤ s.capacity .rawbuf := by
    right
    have hkb : k ≤ budget - at0 := Nat.min_le_right _ _
    show at0 + k ≤ s.params.rawCapacityBytes
    omega
  have hstep : takeTurn (.rxReady n) s = .next (takeChunk (s.rx.take n) { s with rx := s.rx.drop n }) := by
    rw [takeTurn_rxReady, rxReady_of_enabled ⟨hacc, hrxEn⟩, hchunk, hroom, guardSpace_of_le _ hspace]
  have hroom' : State.roomFor (s.rx.take n) { s with rx := s.rx.drop n } = k := hroom
  rw [hstep, takeChunk_eq, hroom', hlen]
  have hstatus : s.status ||| (if k < n then 0x02#8 else 0#8) = if k < n then s.status ||| 0x02#8 else s.status := by
    split
    · rfl
    · exact BitVec.or_zero
  refine ⟨_, rfl, rfl, rfl, hstatus, ?_, fun a => ?_, rfl⟩
  · exact if_congr Iff.rfl rfl hacc
  · simp only [State.byteAt, State.space, Store.read_writeRun, hstored]
    by_cases ha : at0 ≤ a ∧ a < at0 + k
    · rw [if_pos ha, if_pos ha, List.getElem?_take_of_lt (by omega), List.getElem?_take_of_lt (by omega),
        List.getElem?_eq_getElem (by omega), Option.getD_some, List.getD_eq_getElem]
    · rw [if_neg ha, if_neg ha]

/-! ### DECODE -/

/-- Settles O28: DECODE with `C = 0` is `decodePlain`. -/
theorem plainDecodeUsesTheRawBuffer : Obligations.PlainDecodeUsesTheRawBuffer := by
  unfold Obligations.PlainDecodeUsesTheRawBuffer
  intro s hdec hcw
  have hplain : s.cw = 0 := by rw [State.cw, hcw]; rfl
  rw [takeTurn_decoderStep, internalStep_of_decoding hdec, decodeStep_of_plain hplain]
  rfl

/-- DECODE with the coder on, where the raw samples lie in RAWBUF and the repeat table has room. -/
theorem takeTurn_decode_of_rpt_ge {s : State} (hdec : s.state = .decoding) (hcw : 0 < s.cw)
    (hraw : s.limit * s.rawDataWidthBytes ≤ s.params.rawCapacityBytes) (hrpt : s.limit ≤ s.params.rptCapacityEntries) :
    takeTurn .decoderStep s =
      if s.params.outCapacityBytes < s.repeatCounts.sum * s.dataWidthBytes then .next (takeException .allocFail s)
      else .next (decodeExpanded s) := by
  have hspace : s.limit * s.rawDataWidthBytes = 0 ∨ 0 + s.limit * s.rawDataWidthBytes ≤ s.capacity .rawbuf :=
    .inr (by rw [Nat.zero_add]; exact hraw)
  rw [takeTurn_decoderStep, internalStep_of_decoding hdec, decodeStep_of_rpt_ge hcw hrpt, guardSpace_of_le _ hspace]

@[simp] theorem length_repeatCounts (s : State) : s.repeatCounts.length = s.limit := by
  rw [State.repeatCounts, List.length_map, List.length_range]

/-- The repeat count of raw sample `i`. -/
theorem getElem?_repeatCounts {s : State} {i : Nat} (hi : i < s.limit) :
    s.repeatCounts[i]? = some (repeatsOf s.cw (s.rawSample i)) := by
  rw [State.repeatCounts, List.getElem?_map, List.getElem?_range hi]
  rfl

/-- Settles O29: both capacities suffice, so DECODE is `decodeExpanded`, which computes the counts once. -/
theorem expandedDecodeCountsTheRepeats : Obligations.ExpandedDecodeCountsTheRepeats := by
  unfold Obligations.ExpandedDecodeCountsTheRepeats
  intro s hdec hcw r l rep total hraw hrpt hout
  have hstep : takeTurn .decoderStep s = .next (decodeExpanded s) :=
    (takeTurn_decode_of_rpt_ge hdec hcw hraw hrpt).trans (if_neg (Nat.not_lt.mpr hout))
  have hdelay : (s.repeatCounts.take s.delayRaw).sum = ((List.range (min s.delayRaw l)).map rep).sum := by
    rw [State.repeatCounts, ← List.map_take, List.take_range]
    rfl
  refine ⟨_, hstep, rfl, rfl, rfl, hdelay, rfl, fun i hi => ?_, rfl, rfl, rfl⟩
  have hread : Store.read (Store.writeRun s.rpt 0 s.repeatCounts) i = some (rep i) := by
    rw [Store.read_writeRun, length_repeatCounts, Nat.zero_add, if_pos ⟨Nat.zero_le i, hi⟩, Nat.sub_zero,
      getElem?_repeatCounts hi]
    rfl
  exact hread

/-- Settles O30: whichever capacity fails, ALLOC_FAIL is taken, which is fatal. -/
theorem decodeThatDoesNotFitEndsTheAcquisition : Obligations.DecodeThatDoesNotFitEndsTheAcquisition := by
  unfold Obligations.DecodeThatDoesNotFitEndsTheAcquisition
  intro s hdec hcw r l total hraw hfull
  have hfail : takeTurn .decoderStep s = .next (takeException .allocFail s) := by
    obtain hrpt | hrpt := Nat.lt_or_ge s.params.rptCapacityEntries s.limit
    · rw [takeTurn_decoderStep, internalStep_of_decoding hdec, decodeStep_of_rpt_lt hcw hrpt]
    · have hout := hfull.resolve_left (Nat.not_lt.mpr hrpt)
      exact (takeTurn_decode_of_rpt_ge hdec hcw hraw hrpt).trans (if_pos hout)
  rw [hfail]
  rfl

/-! ### The decoded buffer -/

@[simp] theorem length_payload (s : State) (i : Nat) : (s.payload i).length = s.dataWidthBytes := length_payloadOf _ _ _ _

@[simp] theorem length_expansion (s : State) : s.expansion.length = s.repeatCounts.sum * s.dataWidthBytes :=
  length_flatMap_replicate (fun i => length_payload s i) (fun i => repeatsOf s.cw (s.rawSample i)) (List.range s.limit)

/-- Byte `k` of the `j`-th copy of raw sample `i`'s payload. -/
theorem getElem?_expansion {s : State} {i j k : Nat} (hi : i < s.limit) (hj : j < repeatsOf s.cw (s.rawSample i))
    (hk : k < s.dataWidthBytes) :
    s.expansion[(((List.range i).map fun i => repeatsOf s.cw (s.rawSample i)).sum + j) * s.dataWidthBytes + k]? =
      (s.payload i)[k]? :=
  getElem?_flatMap_replicate (fun i => length_payload s i) hi hj hk

/-- OUTBUF after a DECODE with the coder on: the expansion from address 0 on. -/
theorem byteAt_outbuf_decodeExpanded {s : State} {a : Nat} (ha : a < s.expansion.length) :
    (decodeExpanded s).byteAt .outbuf a = s.expansion.getD a 0#8 := by
  have hread : Store.read (decodeExpanded s).outbuf a = s.expansion[a]? := by
    rw [decodeExpanded, completeDecode_outbuf, Store.read_writeRun, Nat.zero_add, if_pos ⟨Nat.zero_le a, ha⟩, Nat.sub_zero]
  rw [State.byteAt, State.space, hread, List.getD_eq_getElem?_getD, List.getElem?_eq_getElem ha]
  rfl

/-- Settles O31: OUTBUF holds the expansion, whose blocks are the payloads in their copies. -/
theorem expandedBufferHoldsEachPayloadRepeated : Obligations.ExpandedBufferHoldsEachPayloadRepeated := by
  unfold Obligations.ExpandedBufferHoldsEachPayloadRepeated
  intro s t hdec hcw hstep hstate r d raw rep
  rw [takeTurn_decoderStep, internalStep_of_decoding hdec] at hstep
  obtain ⟨hplain, -⟩ | ⟨-, rfl, -⟩ | ⟨-, -, -, rfl⟩ := decodeStep_cases hstep
  · exact absurd hplain (Nat.pos_iff_ne_zero.mp hcw)
  · cases hstate
  · refine ⟨Config.windowByte s.epoch, fun i j k hi hj hk => ?_⟩
    have hbyte := getElem?_expansion hi hj hk
    have hlen : (((List.range i).map rep).sum + j) * d + k < s.expansion.length := by
      have hpayload : k < (s.payload i).length := by rw [length_payload]; exact hk
      rw [List.getElem?_eq_getElem hpayload] at hbyte
      exact (List.getElem?_eq_some_iff.mp hbyte).1
    rw [byteAt_outbuf_decodeExpanded hlen, List.getD_eq_getElem?_getD, List.getD_eq_getElem?_getD]
    exact congrArg (Option.getD · 0#8) hbyte

end Sys2Proof.Machine
end

section
/-! The invariant of the machine (20_memory.md R61 to R63; 43_rlc_decoder.md R226): it holds at reset, every step
keeps it, and under it no step stops. -/

namespace Sys2Proof.Machine

/-! ### The invariant outside an active acquisition -/

/-- The part of the invariant that speaks of the parameters and of the form of the storage. -/
structure State.StorageOk (s : State) : Prop where
  paramsWf : s.params.wf
  rawbufWf : Store.wf s.rawbuf
  rptWf : Store.wf s.rpt
  outbufWf : Store.wf s.outbuf
  rawbufBelow : Store.below s.rawbuf s.params.rawCapacityBytes
  rptBelow : Store.below s.rpt s.params.rptCapacityEntries
  outbufBelow : Store.below s.outbuf s.params.outCapacityBytes

theorem State.Inv.storageOk {s : State} (h : s.Inv) : s.StorageOk :=
  ⟨h.paramsWf, h.rawbufWf, h.rptWf, h.outbufWf, h.rawbufBelow, h.rptBelow, h.outbufBelow⟩

/-- Released buffers are in canonical form inside their spaces. -/
theorem storageOk_of_released {s : State} (hparams : s.params.wf) (hraw : s.rawbuf = []) (hrpt : s.rpt = [])
    (hout : s.outbuf = []) : s.StorageOk := by
  refine ⟨hparams, ?_, ?_, ?_, ?_, ?_, ?_⟩ <;> simp [hraw, hrpt, hout, Store.wf]

/-- While no acquisition is active the invariant asks only for the storage and for RX_EN. -/
theorem inv_of_not_active {s : State} (h : s.StorageOk) (hactive : s.active = false) (hrxEn : s.rxEn = false) : s.Inv := by
  have inactive (hs : s.active = true) : False := by simp [hactive] at hs
  have not_acc (hs : s.state = .accumulating) : False := inactive ((active_iff s).mpr (.inl hs))
  have not_dec (hs : s.state = .decoding) : False := inactive ((active_iff s).mpr (.inr (.inl hs)))
  have not_del (hs : s.state = .delivering) : False := inactive ((active_iff s).mpr (.inr (.inr hs)))
  exact
    { paramsWf := h.paramsWf
      rawbufWf := h.rawbufWf
      rptWf := h.rptWf
      outbufWf := h.outbufWf
      rawbufBelow := h.rawbufBelow
      rptBelow := h.rptBelow
      outbufBelow := h.outbufBelow
      rxEnActive := hrxEn.trans hactive.symm
      configChecked := fun hs => (inactive hs).elim
      budgetFits := fun hs => (inactive hs).elim
      delayLatched := fun hs => (inactive hs).elim
      accumulatingShort := fun hs => (not_acc hs).elim
      decodingFull := fun hs => (hs.elim not_dec not_del).elim
      rawbufFilled := fun hs => (inactive hs).elim
      totalBounds := fun hs => (not_del hs).elim
      delayInside := fun hs => (not_del hs).elim
      plainSource := fun hs => (not_del hs).elim
      expandedSource := fun hs => (not_del hs).elim
      prePhase := fun hs => (not_del hs).elim }

/-- The DONE entry actions establish the invariant. -/
theorem inv_enterDone {s : State} (h : s.params.wf) : (enterDone s).Inv :=
  inv_of_not_active (storageOk_of_released h rfl rfl rfl) rfl rfl

theorem inv_takeException_fatal {e : BlockException} (he : e.fatal = true) {s : State} (h : s.params.wf) :
    (takeException e s).Inv := by
  rw [takeException, if_pos he]
  exact inv_enterDone h

/-- A reset establishes the invariant. -/
theorem inv_resetBlock {s : State} (h : s.params.wf) : (resetBlock s).Inv :=
  inv_of_not_active (storageOk_of_released h rfl rfl rfl) rfl rfl

/-- The parameters of this block meet the constraints of 00_scope.md R6. -/
theorem config_params_wf : Config.params.wf := by
  have hdata := Config.dataWidthMaxLessOne.isLt
  have haddr := Config.addrWidthMax.isLt
  have hrlc := Config.rlcWidthMax.isLt
  simp only [Params.wf, Config.params]
  omega

/-- Settles O37: at reset nothing is stored and no acquisition is active. -/
theorem resetMeetsTheInvariant : Obligations.ResetMeetsTheInvariant := by
  unfold Obligations.ResetMeetsTheInvariant
  exact inv_of_not_active (storageOk_of_released config_params_wf rfl rfl rfl) rfl rfl

/-! ### What the invariant does not speak of -/

/-- The invariant does not look at STATUS, RDATA64, the streams, the HOST, the inputs to come, or the epoch. -/
theorem State.Inv.of_outside {s t : State} (h : s.Inv)
    (heq : { t with status := s.status, rdata64 := s.rdata64, tx := s.tx, rx := s.rx, sink := s.sink, host := s.host,
                    port := s.port, schedule := s.schedule, answers := s.answers, draws := s.draws,
                    epoch := s.epoch } = s) : t.Inv := by
  rw [← heq] at h
  exact { h with }

theorem State.SameBlock.inv {s u : State} (hu : s.SameBlock u) (h : s.Inv) : u.Inv := by
  obtain ⟨_, _, _, _, _, rfl⟩ := hu
  exact h.of_outside rfl

/-! ### ARM, ABORT and WRITE_REG -/

/-- A configuration that passes ARM's checks has a budget of at least one byte. -/
theorem budgetBytes_pos {s : State} (h : s.cfgValid = true) : 0 < s.budgetBytes := by
  obtain ⟨hdw, -, -, -, hlimit, -, -⟩ := (cfgValid_iff s).mp h
  have hraw : 0 < s.rawDataWidthBytes := by
    show 0 < (s.dw + s.cw + 8 - 1) / 8
    have hdw' : 1 ≤ s.dw := hdw
    omega
  exact Nat.mul_pos hlimit hraw

theorem inv_armEffect {s : State} (h : s.Inv) : (armEffect s).Inv := by
  obtain ⟨-, heq⟩ | ⟨-, -, heq⟩ | ⟨-, -, -, heq⟩ | ⟨-, hcfg, hbudget, heq⟩ := armEffect_cases s <;> rw [heq]
  · exact h.of_outside rfl
  · exact h.of_outside rfl
  · exact inv_takeException_fatal rfl h.paramsWf
  · exact
      { paramsWf := h.paramsWf
        rawbufWf := h.rawbufWf
        rptWf := h.rptWf
        outbufWf := h.outbufWf
        rawbufBelow := h.rawbufBelow
        rptBelow := h.rptBelow
        outbufBelow := h.outbufBelow
        rxEnActive := rfl
        configChecked := fun _ => hcfg
        budgetFits := fun _ => hbudget
        delayLatched := fun _ => rfl
        accumulatingShort := fun _ => budgetBytes_pos hcfg
        decodingFull := by simp
        rawbufFilled := fun _ => Store.filled_zero _
        totalBounds := by simp
        delayInside := by simp
        plainSource := by simp
        expandedSource := by simp
        prePhase := by simp }

theorem inv_abortEffect {s : State} (h : s.Inv) : (abortEffect s).Inv := by
  obtain ⟨-, heq⟩ | ⟨-, heq⟩ := abortEffect_cases s <;> rw [heq]
  · exact inv_takeException_fatal rfl h.paramsWf
  · exact h.of_outside rfl

/-- A configuration write takes effect only while no acquisition is active, and every other write changes STATUS
alone. -/
theorem inv_writeRegister {s : State} (h : s.Inv) (a : Byte) (v : Word64) : (writeRegister a v s).Inv := by
  cases hactive : s.active with
  | true =>
    obtain ⟨status, heq⟩ := writeRegister_of_active hactive a v
    rw [heq]
    exact h.of_outside rfl
  | false =>
    obtain ⟨_, _, _, _, _, _, heq⟩ := writeRegister_frame a v s
    rw [heq]
    exact inv_of_not_active { h.storageOk with } hactive (h.rxEnActive.trans hactive)

/-! ### RX_READY -/

/-- A chunk never goes past the budget. -/
theorem transferredBytes_add_roomFor_le {s : State} (c : List Byte) (h : s.transferredBytes < s.budgetBytes) :
    s.transferredBytes + s.roomFor c ≤ s.budgetBytes := by
  have hroom : s.roomFor c ≤ s.budgetBytes - s.transferredBytes := Nat.min_le_right _ _
  omega

theorem inv_takeChunk {s : State} (h : s.Inv) (hacc : s.state = .accumulating) (c : List Byte) : (takeChunk c s).Inv := by
  have hactive : s.active = true := (active_iff s).mpr (.inl hacc)
  have hshort := h.accumulatingShort hacc
  have hroom := transferredBytes_add_roomFor_le c hshort
  have hfits := h.budgetFits hactive
  have hlen : (c.take (s.roomFor c)).length = s.roomFor c := List.length_take_of_le (Nat.min_le_left _ _)
  have hbelow := Store.writeRun_below (c.take (s.roomFor c)) h.rawbufBelow (a := s.transferredBytes) (by omega)
  have hfilled := Store.writeRun_filled (c.take (s.roomFor c)) (h.rawbufFilled hactive)
  rw [hlen] at hfilled
  have hstate : (takeChunk c s).state =
      if s.transferredBytes + s.roomFor c = s.budgetBytes then .decoding else .accumulating := by
    rw [takeChunk_eq, ← hacc]
  have stillActive : (takeChunk c s).active = true := by
    rw [active_iff, hstate]
    split <;> simp
  have notDelivering : (takeChunk c s).state ≠ .delivering := by
    rw [hstate]
    split <;> simp
  have short (hst : (takeChunk c s).state = .accumulating) : s.transferredBytes + s.roomFor c < s.budgetBytes := by
    refine Nat.lt_of_le_of_ne hroom fun hfull => ?_
    rw [hstate, if_pos hfull] at hst
    cases hst
  have full (hst : (takeChunk c s).state = .decoding) : s.transferredBytes + s.roomFor c = s.budgetBytes := by
    by_contra hfull
    rw [hstate, if_neg hfull] at hst
    cases hst
  rw [takeChunk_eq] at stillActive notDelivering short full ⊢
  exact
    { paramsWf := h.paramsWf
      rawbufWf := Store.writeRun_wf _ _ h.rawbufWf
      rptWf := h.rptWf
      outbufWf := h.outbufWf
      rawbufBelow := hbelow
      rptBelow := h.rptBelow
      outbufBelow := h.outbufBelow
      rxEnActive := (h.rxEnActive.trans hactive).trans stillActive.symm
      configChecked := fun _ => h.configChecked hactive
      budgetFits := fun _ => hfits
      delayLatched := fun _ => h.delayLatched hactive
      accumulatingShort := short
      decodingFull := fun hst => full (hst.resolve_right notDelivering)
      rawbufFilled := fun _ => hfilled
      totalBounds := fun hst => absurd hst notDelivering
      delayInside := fun hst => absurd hst notDelivering
      plainSource := fun hst => absurd hst notDelivering
      expandedSource := fun hst => absurd hst notDelivering
      prePhase := fun hst => absurd hst notDelivering }

theorem inv_rxReady {n : Nat} {s t : State} (h : s.Inv) (ht : rxReady n s = .next t) : t.Inv := by
  obtain ⟨-, rfl⟩ | ⟨⟨hacc, -⟩, -, rfl⟩ := rxReady_cases ht
  · exact h
  · exact inv_takeChunk (s := { s with rx := s.rx.drop (chunkSize n s) }) (h.of_outside rfl) hacc _

/-! ### DECODE -/

/-- The delay that ARM latched lies before the last sample. -/
theorem State.Inv.delayRaw_lt_limit {s : State} (h : s.Inv) (hactive : s.active = true) : s.delayRaw < s.limit := by
  obtain ⟨-, -, -, -, hlimit, -, hratio⟩ := (cfgValid_iff s).mp (h.configChecked hactive)
  have hdelay := delayRawOf_le_pred hratio s.limit
  rw [h.delayLatched hactive]
  have hlimit' : 1 ≤ s.limit := hlimit
  omega

/-- The sum of `n` numbers of 1 to `b` lies in `n` to `n * b`. -/
theorem sum_bounds {b : Nat} {ns : List Nat} (h : ∀ n ∈ ns, 1 ≤ n ∧ n ≤ b) :
    ns.length ≤ ns.sum ∧ ns.sum ≤ ns.length * b := by
  have hlow := List.card_nsmul_le_sum ns 1 fun n hn => (h n hn).1
  have hhigh := List.sum_le_card_nsmul ns b fun n hn => (h n hn).2
  simp only [smul_eq_mul, Nat.mul_one] at hlow hhigh
  exact ⟨hlow, hhigh⟩

/-- A proper initial part of positive numbers has a smaller sum. -/
theorem sum_take_lt {ns : List Nat} (h : ∀ n ∈ ns, 1 ≤ n) {k : Nat} (hk : k < ns.length) : (ns.take k).sum < ns.sum := by
  have hsplit : (ns.take k).sum + (ns.drop k).sum = ns.sum := List.sum_take_add_sum_drop ns k
  have hlow := List.card_nsmul_le_sum (ns.drop k) 1 fun n hn => h n (List.mem_of_mem_drop hn)
  simp only [smul_eq_mul, Nat.mul_one, List.length_drop] at hlow
  omega

/-- Every repeat count lies in 1 to `2^C` (30_encoding.md R101). -/
theorem repeatCounts_bounds {s : State} : ∀ n ∈ s.repeatCounts, 1 ≤ n ∧ n ≤ 2 ^ s.cw := by
  intro n hn
  obtain ⟨i, -, rfl⟩ := List.mem_map.mp hn
  exact ⟨one_le_repeatsOf _ _, repeatsOf_le _ _⟩

/-- DELIV_PHASE after DECODE is PRE only where there are samples before the trigger (43_rlc_decoder.md R220). -/
theorem delay_pos_of_pre {n : Nat} (h : (if 0 < n then DelivPhase.pre else .trig) = .pre) : 0 < n := by
  by_contra hn
  rw [if_neg hn] at h
  cases h

theorem inv_decodePlain {s : State} (h : s.Inv) (hdec : s.state = .decoding) (hcw : s.cw = 0) : (decodePlain s).Inv := by
  have hactive : s.active = true := (active_iff s).mpr (.inr (.inl hdec))
  have hcw' : (decodePlain s).cw = 0 := hcw
  exact
    { paramsWf := h.paramsWf
      rawbufWf := h.rawbufWf
      rptWf := h.rptWf
      outbufWf := h.outbufWf
      rawbufBelow := h.rawbufBelow
      rptBelow := h.rptBelow
      outbufBelow := h.outbufBelow
      rxEnActive := h.rxEnActive.trans hactive
      configChecked := fun _ => h.configChecked hactive
      budgetFits := fun _ => h.budgetFits hactive
      delayLatched := fun _ => h.delayLatched hactive
      accumulatingShort := by simp [decodePlain]
      decodingFull := fun _ => h.decodingFull (.inl hdec)
      rawbufFilled := fun _ => h.rawbufFilled hactive
      totalBounds := fun _ => ⟨Nat.le_refl _, Nat.le_mul_of_pos_right _ (Nat.two_pow_pos _)⟩
      delayInside := fun _ => h.delayRaw_lt_limit hactive
      plainSource := fun _ _ => ⟨rfl, rfl⟩
      expandedSource := fun _ hpos => absurd hcw' (Nat.pos_iff_ne_zero.mp hpos)
      prePhase := fun _ hpre => delay_pos_of_pre hpre }

theorem inv_decodeExpanded {s : State} (h : s.Inv) (hdec : s.state = .decoding) (hcw : 0 < s.cw)
    (hrpt : s.limit ≤ s.params.rptCapacityEntries)
    (hout : s.repeatCounts.sum * s.dataWidthBytes ≤ s.params.outCapacityBytes) : (decodeExpanded s).Inv := by
  have hactive : s.active = true := (active_iff s).mpr (.inr (.inl hdec))
  have hcw' : 0 < (decodeExpanded s).cw := hcw
  have hrptBelow : Store.below (Store.writeRun s.rpt 0 s.repeatCounts) s.params.rptCapacityEntries :=
    Store.writeRun_below _ h.rptBelow (by rw [length_repeatCounts, Nat.zero_add]; exact hrpt)
  have houtBelow : Store.below (Store.writeRun s.outbuf 0 s.expansion) s.params.outCapacityBytes :=
    Store.writeRun_below _ h.outbufBelow (by rw [length_expansion, Nat.zero_add]; exact hout)
  have hfilled : Store.filled (Store.writeRun s.outbuf 0 s.expansion) (s.repeatCounts.sum * s.dataWidthBytes) := by
    have hrun := Store.writeRun_filled s.expansion (Store.filled_zero s.outbuf)
    rwa [length_expansion, Nat.zero_add] at hrun
  have hbounds := sum_bounds (repeatCounts_bounds (s := s))
  rw [length_repeatCounts] at hbounds
  have hdelay : (s.repeatCounts.take s.delayRaw).sum < s.repeatCounts.sum :=
    sum_take_lt (fun n hn => (repeatCounts_bounds n hn).1)
      (by rw [length_repeatCounts]; exact h.delayRaw_lt_limit hactive)
  exact
    { paramsWf := h.paramsWf
      rawbufWf := h.rawbufWf
      rptWf := Store.writeRun_wf _ _ h.rptWf
      outbufWf := Store.writeRun_wf _ _ h.outbufWf
      rawbufBelow := h.rawbufBelow
      rptBelow := hrptBelow
      outbufBelow := houtBelow
      rxEnActive := h.rxEnActive.trans hactive
      configChecked := fun _ => h.configChecked hactive
      budgetFits := fun _ => h.budgetFits hactive
      delayLatched := fun _ => h.delayLatched hactive
      accumulatingShort := by simp [decodeExpanded]
      decodingFull := fun _ => h.decodingFull (.inl hdec)
      rawbufFilled := fun _ => h.rawbufFilled hactive
      totalBounds := fun _ => hbounds
      delayInside := fun _ => hdelay
      plainSource := fun _ hzero => absurd hzero (Nat.pos_iff_ne_zero.mp hcw')
      expandedSource := fun _ _ => ⟨rfl, hout, hfilled⟩
      prePhase := fun _ hpre => delay_pos_of_pre hpre }

theorem inv_decodeStep {s t : State} (h : s.Inv) (hdec : s.state = .decoding) (ht : decodeStep s = .next t) : t.Inv := by
  obtain ⟨hcw, rfl⟩ | ⟨-, rfl, -⟩ | ⟨hcw, hrpt, hout, rfl⟩ := decodeStep_cases ht
  · exact inv_decodePlain h hdec hcw
  · exact inv_takeException_fatal rfl h.paramsWf
  · exact inv_decodeExpanded h hdec hcw hrpt hout

/-! ### DELIVER -/

/-- Handing an event and leaving PRE behind keeps the invariant. -/
theorem State.Inv.of_phase {s : State} (h : s.Inv) (evs : List SinkEvent) {phase : DelivPhase} (hphase : phase ≠ .pre) :
    State.Inv { s with sink := evs, delivPhase := phase } :=
  { h with prePhase := fun _ hpre => absurd hpre hphase }

theorem inv_deliverStep {s t : State} (h : s.Inv) (ht : deliverStep s = .next t) : t.Inv := by
  obtain ⟨-, rfl⟩ | ⟨-, rfl⟩ | ⟨-, rfl⟩ := deliverStep_cases ht
  · exact h.of_phase _ (by decide)
  · exact h.of_phase _ (by decide)
  · exact inv_enterDone h.paramsWf

/-! ### Every step -/

theorem inv_internalStep {s t : State} (h : s.Inv) (ht : internalStep s = .next t) : t.Inv := by
  obtain ⟨-, -, rfl⟩ | ⟨hdec, hdecode⟩ | ⟨-, hdeliver⟩ := internalStep_cases ht
  · exact h
  · exact inv_decodeStep h hdec hdecode
  · exact inv_deliverStep h hdeliver

/-- Settles O38: each thing that can act on the block keeps the invariant. -/
theorem everyStepKeepsTheInvariant : Obligations.EveryStepKeepsTheInvariant := by
  unfold Obligations.EveryStepKeepsTheInvariant
  intro s s' hinv h
  obtain ⟨u, hu, hcase⟩ := step_cases h
  have huinv := hu.inv hinv
  obtain rfl | ⟨-, rfl⟩ | ⟨-, rfl⟩ | ⟨a, v, -, rfl⟩ | ⟨_, _, _, _, _, rfl⟩ | ⟨n, -, hrx⟩ | ⟨-, hstep⟩ | ⟨-, rfl⟩ := hcase
  · exact huinv
  · exact inv_armEffect huinv
  · exact inv_abortEffect huinv
  · exact inv_writeRegister huinv a v
  · exact huinv.of_outside rfl
  · exact inv_rxReady huinv hrx
  · exact inv_internalStep huinv hstep
  · exact inv_resetBlock huinv.paramsWf

/-! ### No step stops -/

theorem exists_runItem_eq_next (c : Command) (s : State) : ∃ t, runItem c s = .next t := by
  cases hdecode : decode c with
  | ok i =>
    rw [runItem_of_decode_ok hdecode]
    exact exists_exec_eq_next i s
  | error e =>
    rw [runItem_of_decode_error hdecode]
    cases e <;> exact ⟨_, rfl⟩

/-- What RX_READY stores lies in RAWBUF. -/
theorem exists_rxReady_eq_next {s : State} (h : s.Inv) (n : Nat) : ∃ t, rxReady n s = .next t := by
  by_cases henabled : s.state = .accumulating ∧ s.rxEn = true
  · have hfits := h.budgetFits ((active_iff s).mpr (.inl henabled.1))
    have hroom := transferredBytes_add_roomFor_le (s.rx.take (chunkSize n s)) (h.accumulatingShort henabled.1)
    have hspace : s.transferredBytes + s.roomFor (s.rx.take (chunkSize n s)) ≤ s.capacity .rawbuf := hroom.trans hfits
    rw [rxReady_of_enabled henabled, guardSpace_of_le _ (.inr hspace)]
    exact ⟨_, rfl⟩
  · rw [rxReady_of_not_enabled henabled]
    exact ⟨s, rfl⟩

/-- The raw samples DECODE reads lie in RAWBUF. -/
theorem exists_decodeStep_eq_next {s : State} (h : s.Inv) (hdec : s.state = .decoding) : ∃ t, decodeStep s = .next t := by
  obtain hcw | hcw := Nat.eq_zero_or_pos s.cw
  · exact ⟨_, decodeStep_of_plain hcw⟩
  obtain hrpt | hrpt := Nat.lt_or_ge s.params.rptCapacityEntries s.limit
  · exact ⟨_, decodeStep_of_rpt_lt hcw hrpt⟩
  · have hfits : 0 + s.limit * s.rawDataWidthBytes ≤ s.capacity .rawbuf := by
      rw [Nat.zero_add]
      exact h.budgetFits ((active_iff s).mpr (.inr (.inl hdec)))
    rw [decodeStep_of_rpt_ge hcw hrpt, guardSpace_of_le _ (.inr hfits)]
    split <;> exact ⟨_, rfl⟩

/-- The decoded samples lie in the space they are delivered from (20_memory.md R70). -/
theorem State.Inv.samples_inside {s : State} (h : s.Inv) (hdel : s.state = .delivering) :
    s.totalSamples * s.dataWidthBytes ≤ s.capacity s.outSrc := by
  obtain hcw | hcw := Nat.eq_zero_or_pos s.cw
  · obtain ⟨hsrc, htotal⟩ := h.plainSource hdel hcw
    have hfits := h.budgetFits ((active_iff s).mpr (.inr (.inr hdel)))
    have hwidth : s.rawDataWidthBytes = s.dataWidthBytes := by
      rw [State.rawDataWidthBytes, hcw]
      rfl
    rw [State.budgetBytes, hwidth] at hfits
    rw [hsrc, htotal]
    exact hfits
  · obtain ⟨hsrc, hfits, -⟩ := h.expandedSource hdel hcw
    rw [hsrc]
    exact hfits

/-- The samples before the trigger lie in the space they are delivered from. -/
theorem State.Inv.pre_inside {s : State} (h : s.Inv) (hdel : s.state = .delivering) :
    0 + s.delayValue * s.dataWidthBytes ≤ s.capacity s.outSrc := by
  have hdelay := h.delayInside hdel
  have hpre : s.delayValue * s.dataWidthBytes ≤ s.totalSamples * s.dataWidthBytes := Nat.mul_le_mul_right _ (by omega)
  rw [Nat.zero_add]
  exact hpre.trans (h.samples_inside hdel)

/-- The two segments make up all the samples. -/
theorem State.Inv.segments_add {s : State} (h : s.Inv) (hdel : s.state = .delivering) :
    s.delayValue * s.dataWidthBytes + (s.totalSamples - s.delayValue) * s.dataWidthBytes =
      s.totalSamples * s.dataWidthBytes := by
  have hdelay := h.delayInside hdel
  rw [← Nat.add_mul, Nat.add_sub_of_le (by omega)]

/-- The samples from the trigger on lie in the space they are delivered from. -/
theorem State.Inv.post_inside {s : State} (h : s.Inv) (hdel : s.state = .delivering) :
    s.delayValue * s.dataWidthBytes + (s.totalSamples - s.delayValue) * s.dataWidthBytes ≤ s.capacity s.outSrc :=
  (h.segments_add hdel).trans_le (h.samples_inside hdel)

/-- DELIVER_PRE under the invariant (43_rlc_decoder.md R221). -/
theorem deliverPre_eq {s : State} (h : s.Inv) (hdel : s.state = .delivering) :
    deliverPre s = .next { sinkEvent (logicEvent 0 s.delayValue s) s with delivPhase := .trig } :=
  guardSpace_of_le _ (.inr (h.pre_inside hdel))

/-- DELIVER_POST under the invariant (43_rlc_decoder.md R223). -/
theorem deliverPost_eq {s : State} (h : s.Inv) (hdel : s.state = .delivering) :
    deliverPost s = .next (enterDone (sinkEvent (logicEvent s.delayValue (s.totalSamples - s.delayValue) s) s)) :=
  guardSpace_of_le _ (.inr (h.post_inside hdel))

theorem exists_deliverStep_eq_next {s : State} (h : s.Inv) (hdel : s.state = .delivering) :
    ∃ t, deliverStep s = .next t := by
  cases hphase : s.delivPhase with
  | pre => exact ⟨_, (deliverStep_of_pre hphase).trans (deliverPre_eq h hdel)⟩
  | trig => exact ⟨_, deliverStep_of_trig hphase⟩
  | post => exact ⟨_, (deliverStep_of_post hphase).trans (deliverPost_eq h hdel)⟩

theorem exists_internalStep_eq_next {s : State} (h : s.Inv) : ∃ t, internalStep s = .next t := by
  by_cases hdec : s.state = .decoding
  · rw [internalStep_of_decoding hdec]
    exact exists_decodeStep_eq_next h hdec
  by_cases hdel : s.state = .delivering
  · rw [internalStep_of_delivering hdel]
    exact exists_deliverStep_eq_next h hdel
  · exact ⟨s, internalStep_of_passing hdec hdel⟩

/-- Under the invariant every turn answers a next state. -/
theorem exists_takeTurn_eq_next {s : State} (h : s.Inv) (turn : Turn) : ∃ t, takeTurn turn s = .next t := by
  cases turn with
  | hostOp =>
    cases hport : s.port with
    | nil => exact ⟨s, by simp [takeTurn, hport, agentTurn]⟩
    | cons c cs =>
      rw [takeTurn_hostOp_of_port hport]
      exact exists_runItem_eq_next c _
  | rxReady n => exact exists_rxReady_eq_next h n
  | decoderStep => exact exists_internalStep_eq_next h
  | _ => exact ⟨_, rfl⟩

/-- A run goes on from what its first step answers. -/
theorem core_run_succ {s t : State} (h : step s = .next t) (n : Nat) : core.run (n + 1) s = core.run n t := by
  have hcore : core.step s = .next t := h
  simp only [Host.Core.run, hcore]

/-- Settles O39: a step from a state of the invariant answers a state of the invariant, and so do `n` steps. -/
theorem machineNeverStopsUnderTheInvariant : Obligations.MachineNeverStopsUnderTheInvariant := by
  unfold Obligations.MachineNeverStopsUnderTheInvariant
  intro n
  induction n with
  | zero => exact fun s h => ⟨s, rfl, h⟩
  | succ n ih =>
    intro s h
    obtain ⟨t, ht⟩ : ∃ t, step s = .next t :=
      exists_takeTurn_eq_next ((sameBlock_afterTurn s).inv h) (nextTurn s)
    obtain ⟨u, hrun, hu⟩ := ih t (everyStepKeepsTheInvariant s t h ht)
    exact ⟨u, (core_run_succ ht n).trans hrun, hu⟩

/-! ### What follows from the invariant -/

/-- Settles O34: the bounds are the invariant of the state DECODE answers. -/
theorem decodeLeavesAPostTriggerSample : Obligations.DecodeLeavesAPostTriggerSample := by
  unfold Obligations.DecodeLeavesAPostTriggerSample
  intro s t hinv hdec hstep hdel
  rw [takeTurn_decoderStep, internalStep_of_decoding hdec] at hstep
  have htinv := inv_decodeStep hinv hdec hstep
  obtain ⟨hlow, hhigh⟩ := htinv.totalBounds hdel
  have hdelay := htinv.delayInside hdel
  have hconfig : t.limit = s.limit ∧ t.cw = s.cw := by
    obtain rfl | ⟨_, _, _, _, _, _, rfl⟩ := decodeStep_frame hstep <;> exact ⟨rfl, rfl⟩
  rw [hconfig.1] at hlow hhigh
  rw [hconfig.2] at hhigh
  exact ⟨hlow, hhigh, by omega, by omega⟩

/-- Settles O35: the step of each phase, whose accesses lie in their space. -/
theorem eachDeliveryStepHandsItsEvent : Obligations.EachDeliveryStepHandsItsEvent := by
  unfold Obligations.EachDeliveryStepHandsItsEvent
  intro s hinv hdel d
  rw [takeTurn_decoderStep, internalStep_of_delivering hdel]
  refine ⟨fun hphase => ?_, fun hphase => ?_, fun hphase => ?_⟩
  · rw [deliverStep_of_pre hphase, deliverPre_eq hinv hdel, logicEvent, Nat.zero_mul]
    rfl
  · rw [deliverStep_of_trig hphase]
    rfl
  · rw [deliverStep_of_post hphase, deliverPost_eq hinv hdel]
    simp only [enterDone, sinkEvent, releaseBuffers, List.append_assoc]
    rfl

/-- Two reads side by side are one read. -/
theorem bytesAt_append (sp : Space) (a m n : Nat) (s : State) :
    s.bytesAt sp a m ++ s.bytesAt sp (a + m) n = s.bytesAt sp a (m + n) := by
  unfold State.bytesAt
  rw [List.range_add, List.map_append, List.map_map]
  simp only [Function.comp_def, Nat.add_assoc]

theorem takeTurns_cons_of_next {turn : Turn} {s t : State} (h : takeTurn turn s = .next t) (turns : List Turn) :
    takeTurns (turn :: turns) s = takeTurns turns t := by
  rw [takeTurns, h]

/-- From TRIG on two turns of the decoder hand TRIGGER, the samples from the trigger on, and END. -/
theorem deliver_from_trig {s : State} (hinv : s.Inv) (hdel : s.state = .delivering) (hphase : s.delivPhase = .trig) :
    let d := (s.dataWidth.toNat + 7) / 8
    takeTurns [.decoderStep, .decoderStep] s = .next { s with
      sink := s.sink ++ [.trigger, .logic (s.bytesAt s.outSrc (s.delayValue * d)
        ((s.totalSamples - s.delayValue) * d)) d, .endOfAcquisition]
      delivPhase := .post, state := .done, rxEn := false, rawbuf := [], rpt := [], outbuf := []
      epoch := s.epoch + 1 } := by
  intro d
  obtain ⟨-, htrig, -⟩ := eachDeliveryStepHandsItsEvent s hinv hdel
  obtain ⟨-, -, hpost⟩ := eachDeliveryStepHandsItsEvent { s with sink := s.sink ++ [.trigger], delivPhase := .post }
    (hinv.of_phase _ (by decide)) hdel
  rw [takeTurns_cons_of_next (htrig hphase), takeTurns_cons_of_next (hpost rfl), takeTurns]
  simp only [List.append_assoc]
  rfl

/-- Settles O36: the steps of the phases one after the other, PRE first where there are samples before the trigger. -/
theorem deliveryHandsTheSinkItsSequence : Obligations.DeliveryHandsTheSinkItsSequence := by
  unfold Obligations.DeliveryHandsTheSinkItsSequence
  intro s hinv hdel hphase d preBytes postBytes
  constructor
  · have hseg : s.delayValue * d + (s.totalSamples - s.delayValue) * d = s.totalSamples * d := hinv.segments_add hdel
    have happend := bytesAt_append s.outSrc 0 (s.delayValue * d) ((s.totalSamples - s.delayValue) * d) s
    rw [Nat.zero_add, hseg] at happend
    exact happend
  · by_cases hpos : 0 < s.delayValue
    · rw [if_pos hpos] at hphase
      obtain ⟨hpre, -, -⟩ := eachDeliveryStepHandsItsEvent s hinv hdel
      have hrest := deliver_from_trig (s := { s with sink := s.sink ++ [.logic preBytes d], delivPhase := .trig })
        (hinv.of_phase _ (by decide)) hdel rfl
      rw [if_pos hpos, if_pos hpos]
      exact ⟨_, (takeTurns_cons_of_next (hpre hphase) _).trans hrest, rfl, rfl, rfl, rfl, rfl, rfl, rfl, rfl⟩
    · rw [if_neg hpos] at hphase
      rw [if_neg hpos, if_neg hpos, List.append_nil]
      exact ⟨_, deliver_from_trig hinv hdel hphase, rfl, rfl, rfl, rfl, rfl, rfl, rfl, rfl⟩

end Sys2Proof.Machine
end

section
/-! The trigger translation (42_host_functions.md R197 to R200; 30_encoding.md R107): what setting and clearing do to
one channel's bit, and what the table keeps apart. -/

namespace Sys2Proof.Machine

/-! ### The delay -/

/-- Settles O47: the delay is below the sample count, and at 0 and 100 percent it is at the two ends. -/
theorem delayRawStaysBelowTheSampleCount : Obligations.DelayRawStaysBelowTheSampleCount := by
  unfold Obligations.DelayRawStaysBelowTheSampleCount
  intro l p _ hp
  exact ⟨rfl, delayRawOf_le_pred hp l, by rw [delayRawOf, Nat.mul_zero, Nat.zero_div],
    Nat.mul_div_cancel (l - 1) (by decide)⟩

/-! ### One channel's bit -/

/-- The bit of a channel in its byte. -/
theorem getLsbD_channelBit (c n : Nat) : (channelBit c).getLsbD n = decide (n = c % 8) := by
  rw [channelBit, BitVec.getLsbD_shiftLeft]
  by_cases h : n = c % 8
  · simp [h, Nat.mod_lt]
  · by_cases hlt : n < c % 8
    · simp [h, hlt]
    · have hpos : n - c % 8 ≠ 0 := by omega
      simp [h, hpos]

/-- A channel of a vector with one byte changed: its own bit if it lies in that byte. -/
theorem channelOf_modify (v : List Byte) (c c' : Nat) (f : Byte → Byte) :
    channelOf (v.modify (c / 8) f) c' =
      if c / 8 = c' / 8 ∧ c' / 8 < v.length then (f (v.getD (c' / 8) 0)).getLsbD (c' % 8) else channelOf v c' := by
  unfold channelOf
  rw [List.getD_eq_getElem?_getD, List.getD_eq_getElem?_getD, List.getElem?_modify]
  by_cases hlen : c' / 8 < v.length
  · rw [List.getElem?_eq_getElem hlen]
    by_cases h : c / 8 = c' / 8 <;> simp [h, hlen]
  · rw [List.getElem?_eq_none (by omega)]
    simp [hlen]

/-- Channels that share a byte differ in their bit. -/
theorem mod_ne_of_div_eq {c c' : Nat} (hne : c' ≠ c) (h : c / 8 = c' / 8) : c' % 8 ≠ c % 8 := by
  omega

theorem channelOf_setChannel_self {c : Nat} {v : List Byte} (h : c < 8 * v.length) :
    channelOf (setChannel c v) c = true := by
  rw [setChannel, channelOf_modify, if_pos ⟨rfl, by omega⟩, BitVec.getLsbD_or, getLsbD_channelBit]
  simp

theorem channelOf_clearChannel_self (c : Nat) (v : List Byte) : channelOf (clearChannel c v) c = false := by
  rw [clearChannel, channelOf_modify]
  split
  · rw [BitVec.getLsbD_and, BitVec.getLsbD_not, getLsbD_channelBit]
    simp
  · have hout : v[c / 8]? = none := List.getElem?_eq_none (by omega)
    simp [channelOf, List.getD_eq_getElem?_getD, hout]

theorem channelOf_setChannel_of_ne {c c' : Nat} (h : c' ≠ c) (v : List Byte) :
    channelOf (setChannel c v) c' = channelOf v c' := by
  rw [setChannel, channelOf_modify]
  split
  · have hbit := mod_ne_of_div_eq h (by omega)
    rw [BitVec.getLsbD_or, getLsbD_channelBit, decide_eq_false hbit, Bool.or_false]
    rfl
  · rfl

theorem channelOf_clearChannel_of_ne {c c' : Nat} (h : c' ≠ c) (v : List Byte) :
    channelOf (clearChannel c v) c' = channelOf v c' := by
  rw [clearChannel, channelOf_modify]
  split
  · have hbit := mod_ne_of_div_eq h (by omega)
    rw [BitVec.getLsbD_and, BitVec.getLsbD_not, getLsbD_channelBit, decide_eq_false hbit]
    simp [channelOf, Nat.mod_lt]
  · rfl

@[simp] theorem length_setChannel (c : Nat) (v : List Byte) : (setChannel c v).length = v.length := List.length_modify ..

@[simp] theorem length_clearChannel (c : Nat) (v : List Byte) : (clearChannel c v).length = v.length :=
  List.length_modify ..

/-- Settles O51: each row sets and clears one channel's bits, and no other channel's. -/
theorem triggerTableSetsAndClearsItsBits : Obligations.TriggerTableSetsAndClearsItsBits := by
  unfold Obligations.TriggerTableSetsAndClearsItsBits
  intro k c c' v d hmask hvalue hmaskLast hvalueLast hedge hc w
  have set {x : List Byte} (hx : x.length = d) : channelOf (setChannel c x) c = true :=
    channelOf_setChannel_self (by rw [hx]; exact hc)
  constructor
  · intro hne
    cases k <;> simp [w, applyMatch, channelOf_setChannel_of_ne hne, channelOf_clearChannel_of_ne hne]
  · cases k <;> simp [w, applyMatch, channelOf_clearChannel_self, set hmask, set hvalue, set hmaskLast, set hvalueLast,
      set hedge]

/-! ### The translation -/

theorem applySpec_eq_none_iff {dw : Nat} {v : TriggerVectors} {sp : TriggerSpec} :
    applySpec dw v sp = none ↔ sp.enabled = true ∧ dw ≤ sp.channel := by
  unfold applySpec
  split_ifs with henabled hin
  · simp [hin]
  · simp [henabled, Nat.not_lt.mp hin]
  · simp [henabled]

theorem applySpec_of_disabled {sp : TriggerSpec} (h : ¬ sp.enabled = true) (dw : Nat) (v : TriggerVectors) :
    applySpec dw v sp = some v := if_neg h

/-- A specification that is applied leaves the vectors or changes them by one row of the table. -/
theorem applySpec_eq_some {dw : Nat} {v v' : TriggerVectors} {sp : TriggerSpec} (h : applySpec dw v sp = some v') :
    v' = v ∨ v' = applyMatch sp.kind sp.channel v := by
  unfold applySpec at h
  split_ifs at h with henabled hin
  · exact .inr (Option.some.inj h).symm
  · exact .inl (Option.some.inj h).symm

theorem translateFrom_cons_of_some {dw : Nat} {v v' : TriggerVectors} {sp : TriggerSpec} (h : applySpec dw v sp = some v')
    (rest : List TriggerSpec) : translateFrom dw v (sp :: rest) = translateFrom dw v' rest := by
  rw [translateFrom, h]

theorem translateFrom_cons_of_none {dw : Nat} {v : TriggerVectors} {sp : TriggerSpec} (h : applySpec dw v sp = none)
    (rest : List TriggerSpec) : translateFrom dw v (sp :: rest) = none := by
  rw [translateFrom, h]

theorem translateFrom_eq_none_iff {dw : Nat} {v : TriggerVectors} {specs : List TriggerSpec} :
    translateFrom dw v specs = none ↔ ∃ sp ∈ specs, sp.enabled = true ∧ dw ≤ sp.channel := by
  induction specs generalizing v with
  | nil => simp [translateFrom]
  | cons sp rest ih =>
    rw [List.exists_mem_cons_iff, ← applySpec_eq_none_iff (v := v)]
    cases happly : applySpec dw v sp with
    | none => simp [translateFrom_cons_of_none happly]
    | some v' => simp [translateFrom_cons_of_some happly, ih]

/-- A disabled specification is skipped. -/
theorem translateFrom_filter_enabled (dw : Nat) (v : TriggerVectors) (specs : List TriggerSpec) :
    translateFrom dw v specs = translateFrom dw v (specs.filter (fun sp => sp.enabled)) := by
  induction specs generalizing v with
  | nil => rfl
  | cons sp rest ih =>
    by_cases henabled : sp.enabled = true
    · rw [List.filter_cons_of_pos henabled, translateFrom, translateFrom]
      cases applySpec dw v sp with
      | none => rfl
      | some v' => exact ih v'
    · rw [List.filter_cons_of_neg henabled, translateFrom_cons_of_some (applySpec_of_disabled henabled dw v), ih]

/-- What one row of the table keeps, the whole translation keeps. -/
theorem translateFrom_keeps {P : TriggerVectors → Prop} (hrow : ∀ k c v, P v → P (applyMatch k c v)) {dw : Nat}
    {v w : TriggerVectors} {specs : List TriggerSpec} (hv : P v) (h : translateFrom dw v specs = some w) : P w := by
  induction specs generalizing v with
  | nil =>
    obtain rfl := Option.some.inj h
    exact hv
  | cons sp rest ih =>
    cases happly : applySpec dw v sp with
    | none =>
      rw [translateFrom_cons_of_none happly] at h
      cases h
    | some v' =>
      rw [translateFrom_cons_of_some happly] at h
      obtain rfl | rfl := applySpec_eq_some happly
      · exact ih hv h
      · exact ih (hrow _ _ _ hv) h

/-- At channel `c` the edge bit and the mask bits exclude each other (42_host_functions.md R199). -/
def TriggerVectors.ApartAt (v : TriggerVectors) (c : Nat) : Prop :=
  channelOf v.edgeMask c = false ∨ (channelOf v.mask c = false ∧ channelOf v.maskLast c = false)

theorem channelOf_replicate_zero (d c : Nat) : channelOf (List.replicate d 0) c = false := by
  rw [channelOf, List.getD_eq_getElem?_getD, List.getElem?_replicate]
  split <;> simp

theorem apartAt_zeroVectors (d c : Nat) : (zeroVectors d).ApartAt c := .inl (channelOf_replicate_zero d c)

/-- Every row clears the edge bit or both mask bits of its channel. -/
theorem apartAt_applyMatch (k : MatchKind) (c c' : Nat) (v : TriggerVectors) (h : v.ApartAt c') :
    (applyMatch k c v).ApartAt c' := by
  by_cases hne : c' = c
  · subst hne
    cases k
    case edge => exact .inr ⟨channelOf_clearChannel_self c' _, channelOf_clearChannel_self c' _⟩
    all_goals exact .inl (channelOf_clearChannel_self c' _)
  · unfold TriggerVectors.ApartAt at h ⊢
    cases k <;> simpa [applyMatch, channelOf_setChannel_of_ne hne, channelOf_clearChannel_of_ne hne] using h

/-- Settles O52: the failures are those of the single specifications, and every row keeps edge and mask apart. -/
theorem triggerTranslationKeepsEdgeAndMaskApart : Obligations.TriggerTranslationKeepsEdgeAndMaskApart := by
  unfold Obligations.TriggerTranslationKeepsEdgeAndMaskApart
  intro dw specs
  refine ⟨translateFrom_eq_none_iff, translateFrom_filter_enabled dw _ specs, rfl, fun v hv c => ?_⟩
  have apart : v.ApartAt c :=
    translateFrom_keeps (P := (·.ApartAt c)) (fun k c' w hw => apartAt_applyMatch k c' c w hw) (apartAt_zeroVectors _ c) hv
  unfold TriggerVectors.ApartAt at apart
  constructor
  · intro hedge
    simpa [hedge] using apart
  · rintro (hmask | hmaskLast)
    · simpa [hmask] using apart
    · simpa [hmaskLast] using apart

/-! ### The length of the vectors -/

theorem sized_zeroVectors (d : Nat) : (zeroVectors d).sized d := by
  simp [TriggerVectors.sized, zeroVectors]

theorem sized_vectorsAfterFailure (draw d : Nat) : (vectorsAfterFailure draw d).sized d := by
  simp [TriggerVectors.sized, vectorsAfterFailure]

theorem sized_applyMatch {d : Nat} (k : MatchKind) (c : Nat) (v : TriggerVectors) (h : v.sized d) :
    (applyMatch k c v).sized d := by
  unfold TriggerVectors.sized at h ⊢
  cases k <;> simpa [applyMatch] using h

/-- The translation makes vectors of `ceil_div(data_width, 8)` bytes (42_host_functions.md R197). -/
theorem sized_translate {dw : Nat} {specs : List TriggerSpec} {v : TriggerVectors} (h : translate dw specs = some v) :
    v.sized (ceilDiv dw 8) :=
  translateFrom_keeps (P := (·.sized (ceilDiv dw 8))) (fun k c w hw => sized_applyMatch k c w hw) (sized_zeroVectors _) h

end Sys2Proof.Machine
end

section
/-! The HOST's negotiation (42_host_functions.md R190 to R196; 41_command_frames.md R163): what the HOST does on each
reply, said once as an equation on its records, and where that takes it. -/

namespace Sys2Proof.Machine

/-! ### The phases that follow, by the flags and the widths -/

/-- After the channel names: request 6 if feature bit 2 is set. -/
def phaseAfterNames (c : DeviceCapabilities) : HostPhase :=
  if c.featureFlags.getLsbD 2 = true then .awaiting .sampleRate else .negotiated

/-- At the name of channel `i`, as long as there are channels. -/
def phaseAtName (i : Nat) (c : DeviceCapabilities) : HostPhase :=
  if i < c.dataWidth then .awaiting (.nameLength i) else phaseAfterNames c

/-- After the code width: request 5 if feature bit 3 is set and the channels can be counted in a byte. -/
def phaseAfterCode (c : DeviceCapabilities) : HostPhase :=
  if c.featureFlags.getLsbD 3 = true ∧ c.dataWidth ≤ 255 then phaseAtName 0 c else phaseAfterNames c

/-- After the widths: request 4 if feature bit 1 is set. -/
def phaseAfterWidths (c : DeviceCapabilities) : HostPhase :=
  if c.featureFlags.getLsbD 1 = true then .awaiting .rlcWidth else phaseAfterCode c

/-- The capabilities when request 4 has been asked or passed over: without feature bit 1 the code width is 0. -/
def DeviceCapabilities.afterWidths (c : DeviceCapabilities) : DeviceCapabilities :=
  { c with runlengthCodeWidth := if c.featureFlags.getLsbD 1 = true then c.runlengthCodeWidth else 0 }

theorem askSampleRate_host (h : HostState) : (askSampleRate h).1 = { h with phase := phaseAfterNames h.caps } := by
  unfold askSampleRate phaseAfterNames DeviceCapabilities.hasSampleRate
  split <;> rfl

theorem nextName_host (i : Nat) (h : HostState) : (nextName i h).1 = { h with phase := phaseAtName i h.caps } := by
  unfold nextName phaseAtName
  split
  · rfl
  · exact askSampleRate_host h

theorem askChannelNames_host (h : HostState) : (askChannelNames h).1 = { h with phase := phaseAfterCode h.caps } := by
  unfold askChannelNames phaseAfterCode DeviceCapabilities.hasChannelNames
  by_cases hask : h.caps.featureFlags.getLsbD 3 = true ∧ h.caps.dataWidth ≤ 255
  · rw [if_pos hask, if_pos (by simpa using hask)]
    exact nextName_host 0 h
  · rw [if_neg hask, if_neg (by simpa using hask)]
    exact askSampleRate_host h

theorem askRlcWidth_host (h : HostState) :
    (askRlcWidth h).1 = { h with caps := h.caps.afterWidths, phase := phaseAfterWidths h.caps.afterWidths } := by
  unfold askRlcWidth DeviceCapabilities.hasRlc
  by_cases hrlc : h.caps.featureFlags.getLsbD 1 = true
  · have hcaps : h.caps.afterWidths = h.caps := by rw [DeviceCapabilities.afterWidths, if_pos hrlc]
    rw [if_pos hrlc, hcaps, phaseAfterWidths, if_pos hrlc]
  · have hcaps : h.caps.afterWidths = { h.caps with runlengthCodeWidth := 0 } := by
      rw [DeviceCapabilities.afterWidths, if_neg hrlc]
    rw [if_neg hrlc, askChannelNames_host, hcaps, phaseAfterWidths, if_neg hrlc]

/-! ### The HOST's step on each reply -/

/-- What a reply adds to the exceptions met (42_host_functions.md R196). -/
def failureOf (reply : Except HostException (List Byte)) : List HostException :=
  match reply with
  | .ok _ => []
  | .error e => [e]

theorem noteFailure_eq (reply : Except HostException (List Byte)) (h : HostState) :
    noteFailure reply h = { h with exceptions := h.exceptions ++ failureOf reply } := by
  cases reply with
  | ok b => simp [noteFailure, failureOf]
  | error e => rfl

theorem onReply_features_host (reply : Except HostException (List Byte)) (h : HostState) :
    (onReply .features reply h).1 =
      { h with
        caps := { h.caps with featureFlags := featureFlagsOf .v1 reply.toOption }
        exceptions := h.exceptions ++ failureOf reply
        phase := .awaiting .busWidths } := by
  simp only [onReply, noteFailure_eq, askBusWidths]

/-- The capabilities with the widths of a reply. -/
def DeviceCapabilities.withWidths (reply : Option (List Byte)) (c : DeviceCapabilities) : DeviceCapabilities :=
  { c with dataWidth := (busWidthsOf reply).1, addrWidth := (busWidthsOf reply).2 }

theorem onReply_busWidths_host (reply : Except HostException (List Byte)) (h : HostState) :
    (onReply .busWidths reply h).1 =
      { h with
        caps := (h.caps.withWidths reply.toOption).afterWidths
        exceptions := h.exceptions ++ failureOf reply
        vectors := zeroVectors (ceilDiv (busWidthsOf reply.toOption).1 8)
        requestedLimit := none
        phase := phaseAfterWidths (h.caps.withWidths reply.toOption).afterWidths } := by
  simp only [onReply, noteFailure_eq, askRlcWidth_host, DeviceCapabilities.withWidths]

theorem onReply_rlcWidth_host (reply : Except HostException (List Byte)) (h : HostState) :
    (onReply .rlcWidth reply h).1 =
      { h with
        caps := { h.caps with runlengthCodeWidth := codeWidthOf reply.toOption }
        exceptions := h.exceptions ++ failureOf reply
        phase := phaseAfterCode { h.caps with runlengthCodeWidth := codeWidthOf reply.toOption } } := by
  simp only [onReply, noteFailure_eq, askChannelNames_host]

theorem onReply_nameLength_ok (i : Nat) (b : List Byte) (h : HostState) :
    onReply (.nameLength i) (.ok b) h = ({ h with phase := .awaiting (.nameBytes i (le b)) }, []) := rfl

theorem onReply_nameLength_error_host (i : Nat) (e : HostException) (h : HostState) :
    (onReply (.nameLength i) (.error e) h).1 =
      { h with exceptions := h.exceptions ++ [e], phase := phaseAtName (i + 1) h.caps } := by
  simp only [onReply, noteFailure_eq, nextName_host, failureOf]

/-- The names given, with the one of a reply. -/
def DeviceCapabilities.withName (i : Nat) (reply : Except HostException (List Byte)) (c : DeviceCapabilities) :
    DeviceCapabilities :=
  match reply with
  | .ok b => { c with givenNames := c.givenNames ++ [(i, b)] }
  | .error _ => c

theorem onReply_nameBytes_host (i n : Nat) (reply : Except HostException (List Byte)) (h : HostState) :
    (onReply (.nameBytes i n) reply h).1 =
      { h with
        caps := h.caps.withName i reply
        exceptions := h.exceptions ++ failureOf reply
        phase := phaseAtName (i + 1) h.caps } := by
  cases reply with
  | ok b =>
    simp only [onReply, nextName_host, failureOf, List.append_nil]
    rfl
  | error e => simp only [onReply, noteFailure_eq, nextName_host, failureOf, DeviceCapabilities.withName]

theorem onReply_sampleRate_host (reply : Except HostException (List Byte)) (h : HostState) :
    (onReply .sampleRate reply h).1 =
      { h with
        caps := { h.caps with sampleRate := sampleRateOf reply.toOption }
        exceptions := h.exceptions ++ failureOf reply
        phase := .negotiated } := by
  simp only [onReply, noteFailure_eq, finishNegotiation]

/-- Settles O54: the equation of each reply gives its phase, its exception and its default. -/
theorem everySubQueryGoesOnWithItsDefault : Obligations.EverySubQueryGoesOnWithItsDefault := by
  unfold Obligations.EverySubQueryGoesOnWithItsDefault
  intro h afterNames atName afterCode afterWidths
  refine ⟨fun reply => ⟨?_, ?_, ?_, fun i n => ?_, ?_⟩, fun i b => ?_, fun i e => ?_, fun e => ⟨fun q hq => ?_, ?_, ?_, ?_,
    fun i => ?_, fun i n => ?_, ?_⟩⟩
  · rw [onReply_features_host]
  · rw [onReply_busWidths_host]
    rfl
  · rw [onReply_rlcWidth_host]
    rfl
  · rw [onReply_nameBytes_host]
    rfl
  · rw [onReply_sampleRate_host]
  · rw [onReply_nameLength_ok]
  · rw [onReply_nameLength_error_host]
    rfl
  · cases q with
    | identity => exact absurd rfl hq
    | features => rw [onReply_features_host]; rfl
    | busWidths => rw [onReply_busWidths_host]; rfl
    | rlcWidth => rw [onReply_rlcWidth_host]; rfl
    | nameLength i => rw [onReply_nameLength_error_host]
    | nameBytes i n => rw [onReply_nameBytes_host]; rfl
    | sampleRate => rw [onReply_sampleRate_host]; rfl
  · rw [onReply_features_host]
    rfl
  · rw [onReply_busWidths_host]
    rfl
  · rw [onReply_rlcWidth_host]
    rfl
  · rw [onReply_nameLength_error_host]
  · rw [onReply_nameBytes_host]
    rfl
  · rw [onReply_sampleRate_host]
    rfl

/-! ### The identity check -/

/-- The identity check ends the negotiation, or records the version and goes on. -/
theorem onReply_identity_cases (reply : Except HostException (List Byte)) (h : HostState) :
    (∃ e, onReply .identity reply h = failNegotiation e h ∧
      (reply = .error e ∨ ∃ r, reply = .ok r ∧ identify r = none ∧ e = .protocolMismatch)) ∨
    (reply = .ok tokenV0 ∧ onReply .identity reply h =
      ({ h with caps := { h.caps with protocolVersion := .v0, featureFlags := 0 }, phase := .awaiting .busWidths },
        [opc 0xAA#8])) ∨
    (reply = .ok tokenV1 ∧ onReply .identity reply h =
      ({ h with caps := { h.caps with protocolVersion := .v1 }, phase := .awaiting .features }, [opc 0x10#8])) := by
  cases reply with
  | error e => exact .inl ⟨e, rfl, .inl rfl⟩
  | ok r =>
    by_cases h0 : r = tokenV0
    · subst h0
      exact .inr (.inl ⟨rfl, rfl⟩)
    · by_cases h1 : r = tokenV1
      · subst h1
        exact .inr (.inr ⟨rfl, rfl⟩)
      · have hnone : identify r = none := by rw [identify, if_neg h0, if_neg h1]
        refine .inl ⟨.protocolMismatch, ?_, .inr ⟨r, rfl, hnone, rfl⟩⟩
        simp only [onReply, hnone]

/-- Settles O53: the two tokens are matched, and everything else fails the check. -/
theorem identityReplyIsMatchedExactly : Obligations.IdentityReplyIsMatchedExactly := by
  unfold Obligations.IdentityReplyIsMatchedExactly
  intro h r
  refine ⟨?_, ?_, fun h0 h1 => ?_, fun e => ⟨rfl, rfl⟩⟩
  · rintro rfl
    exact ⟨rfl, rfl⟩
  · rintro rfl
    exact ⟨rfl, rfl⟩
  · obtain ⟨e, heq, herror | ⟨-, -, -, rfl⟩⟩ | ⟨hr, -⟩ | ⟨hr, -⟩ := onReply_identity_cases (.ok r) h
    · cases herror
    · rw [heq]
      exact ⟨rfl, rfl⟩
    · exact absurd (Except.ok.inj hr) h0
    · exact absurd (Except.ok.inj hr) h1

/-! ### Where a reply takes the HOST -/

/-- The negotiation goes on to another reply, or has ended well. -/
def HostPhase.GoesOn (p : HostPhase) : Prop := (∃ q, p = .awaiting q) ∨ p = .negotiated

theorem goesOn_phaseAfterNames (c : DeviceCapabilities) : (phaseAfterNames c).GoesOn := by
  unfold phaseAfterNames
  split
  · exact .inl ⟨_, rfl⟩
  · exact .inr rfl

theorem goesOn_phaseAtName (i : Nat) (c : DeviceCapabilities) : (phaseAtName i c).GoesOn := by
  unfold phaseAtName
  split
  · exact .inl ⟨_, rfl⟩
  · exact goesOn_phaseAfterNames c

theorem goesOn_phaseAfterCode (c : DeviceCapabilities) : (phaseAfterCode c).GoesOn := by
  unfold phaseAfterCode
  split
  · exact goesOn_phaseAtName 0 c
  · exact goesOn_phaseAfterNames c

theorem goesOn_phaseAfterWidths (c : DeviceCapabilities) : (phaseAfterWidths c).GoesOn := by
  unfold phaseAfterWidths
  split
  · exact .inl ⟨_, rfl⟩
  · exact goesOn_phaseAfterCode c

/-- Only the identity check can end the negotiation badly, and then nothing more is asked. -/
theorem onReply_phase (q : Query) (reply : Except HostException (List Byte)) (h : HostState) :
    (onReply q reply h).1.phase.GoesOn ∨ (q = .identity ∧ ∃ e, onReply q reply h = failNegotiation e h) := by
  cases q with
  | identity =>
    obtain ⟨e, heq, -⟩ | ⟨-, heq⟩ | ⟨-, heq⟩ := onReply_identity_cases reply h
    · exact .inr ⟨rfl, e, heq⟩
    · exact .inl (.inl ⟨_, by rw [heq]⟩)
    · exact .inl (.inl ⟨_, by rw [heq]⟩)
  | features => exact .inl (.inl ⟨_, by rw [onReply_features_host]⟩)
  | busWidths =>
    rw [onReply_busWidths_host]
    exact .inl (goesOn_phaseAfterWidths _)
  | rlcWidth =>
    rw [onReply_rlcWidth_host]
    exact .inl (goesOn_phaseAfterCode _)
  | nameLength i =>
    cases reply with
    | ok b => exact .inl (.inl ⟨_, rfl⟩)
    | error e =>
      rw [onReply_nameLength_error_host]
      exact .inl (goesOn_phaseAtName _ _)
  | nameBytes i n =>
    rw [onReply_nameBytes_host]
    exact .inl (goesOn_phaseAtName _ _)
  | sampleRate => exact .inl (.inr (by rw [onReply_sampleRate_host]))

/-- The vectors have the bytes of the data width (42_host_functions.md R197). -/
def HostState.VectorsSized (h : HostState) : Prop := h.vectors.sized h.caps.dataWidthBytes

/-- Every reply keeps the vectors' length: the widths alone change it, and clear the vectors anew. -/
theorem onReply_vectorsSized (q : Query) (reply : Except HostException (List Byte)) {h : HostState} (hv : h.VectorsSized) :
    (onReply q reply h).1.VectorsSized := by
  cases q with
  | identity =>
    obtain ⟨e, heq, -⟩ | ⟨-, heq⟩ | ⟨-, heq⟩ := onReply_identity_cases reply h <;> rw [heq] <;> exact hv
  | features =>
    rw [onReply_features_host]
    exact hv
  | busWidths =>
    rw [onReply_busWidths_host]
    exact sized_zeroVectors _
  | rlcWidth =>
    rw [onReply_rlcWidth_host]
    exact hv
  | nameLength i =>
    cases reply with
    | ok b => exact hv
    | error e =>
      rw [onReply_nameLength_error_host]
      exact hv
  | nameBytes i n =>
    rw [onReply_nameBytes_host]
    cases reply <;> exact hv
  | sampleRate =>
    rw [onReply_sampleRate_host]
    exact hv

end Sys2Proof.Machine
end

section
/-! The HOST in the machine (70_reset_and_hazards.md R292; 60_exceptions.md R269; 42_host_functions.md R197): what one
step does to the HOST's records and its port, and what every step keeps of them. -/

namespace Sys2Proof.Machine

/-! ### One step, as the HOST sees it -/

theorem runItem_host {c : Command} {s t : State} (h : runItem c s = .next t) : t.host = s.host ∧ t.port = s.port := by
  obtain ⟨i, -, hexec⟩ | ⟨e, -, rfl⟩ | ⟨b, -, rfl⟩ := runItem_cases h
  · obtain ⟨⟨-, -, hhost, hport, -⟩, -⟩ := instructionsKeepWhatTheyDoNotName i s t hexec
    exact ⟨hhost, hport⟩
  · exact ⟨takeException_host _ _, takeException_port _ _⟩
  · exact ⟨txWrite_host _ _, txWrite_port _ _⟩

theorem rxReady_host {n : Nat} {s t : State} (h : rxReady n s = .next t) : t.host = s.host ∧ t.port = s.port := by
  obtain ⟨_, _, _, _, _, rfl, -⟩ := rxReady_frame h
  exact ⟨rfl, rfl⟩

theorem internalStep_host {s t : State} (h : internalStep s = .next t) : t.host = s.host ∧ t.port = s.port := by
  obtain ⟨-, -, rfl⟩ | ⟨-, rfl⟩ | ⟨-, _, _, _, _, _, _, rfl⟩ | ⟨-, _, _, rfl⟩ | ⟨-, -, _, _, rfl⟩ :=
    internalStep_frame h <;> exact ⟨rfl, rfl⟩

/-- The negotiation starts once, at the start of the boot order. -/
theorem hostNegotiate_cases (s : State) :
    hostNegotiate s = s ∨
    (s.host.phase = .notStarted ∧
      hostNegotiate s =
        { s with host := { s.host with phase := .awaiting .identity }, port := s.port ++ [opc 0xBB#8] }) := by
  unfold hostNegotiate
  cases hphase : s.host.phase with
  | notStarted => exact .inr ⟨rfl, rfl⟩
  | _ => exact .inl rfl

/-- An acquisition begins only for a HOST that has negotiated and has no results to read. -/
theorem hostAcquire_cases (r : AcquisitionRequest) (s : State) :
    hostAcquire r s = s ∨
    (s.host.phase = .negotiated ∧
      hostAcquire r s = hostDecides (beginAcquisition r s.draws s.sink.length s.host) { s with draws := s.draws + 1 }) := by
  unfold hostAcquire
  cases hphase : s.host.phase with
  | negotiated => exact .inr ⟨rfl, rfl⟩
  | _ => exact .inl rfl

/-- What one step does to the HOST and its port: an item leaves the port, one of the HOST's own turns is taken, the
block is reset, or nothing. -/
theorem step_host_cases {s s' : State} (h : step s = .next s') :
    ∃ u, u.host = s.host ∧ u.port = s.port ∧ u.sink = s.sink ∧ u.rdata64 = s.rdata64 ∧
      ((s'.host = s.host ∧ (s'.port = s.port ∨ ∃ c, s.port = c :: s'.port)) ∨
      (nextTurn s = .hostNegotiate ∧ s' = hostNegotiate u) ∨
      (∃ a, nextTurn s = .hostRead a ∧ s' = hostRead a u) ∨
      (∃ r, nextTurn s = .hostAcquire r ∧ s' = hostAcquire r u) ∨
      (nextTurn s = .hostFollow ∧ s' = hostFollow u) ∨
      (∃ items, nextTurn s = .hostIssues items ∧ s' = hostIssues items u) ∨
      (nextTurn s = .resetInput ∧ s' = resetBlock u)) := by
  refine ⟨afterTurn s, afterTurn_host s, afterTurn_port s, afterTurn_sink s, afterTurn_rdata64 s, ?_⟩
  have stays (hs : s'.host = (afterTurn s).host ∧ s'.port = (afterTurn s).port) :
      s'.host = s.host ∧ (s'.port = s.port ∨ ∃ c, s.port = c :: s'.port) :=
    ⟨hs.1.trans (afterTurn_host s), .inl (hs.2.trans (afterTurn_port s))⟩
  obtain ⟨-, -, rfl⟩ | ⟨c, cs, -, hport, hrun⟩ | hnegotiate | hread | hacquire | hfollow | hissues | ⟨bs, -, rfl⟩ |
    ⟨n, -, hrx⟩ | ⟨-, hstep⟩ | hreset := takeTurn_cases h
  · exact .inl (stays ⟨rfl, rfl⟩)
  · obtain ⟨hhost, hcs⟩ := runItem_host hrun
    rw [afterTurn_port] at hport
    exact .inl ⟨hhost.trans (afterTurn_host s), .inr ⟨c, hport.trans (congrArg (c :: ·) hcs.symm)⟩⟩
  · exact .inr (.inl hnegotiate)
  · exact .inr (.inr (.inl hread))
  · exact .inr (.inr (.inr (.inl hacquire)))
  · exact .inr (.inr (.inr (.inr (.inl hfollow))))
  · exact .inr (.inr (.inr (.inr (.inr (.inl hissues)))))
  · exact .inl (stays ⟨rfl, rfl⟩)
  · exact .inl (stays (rxReady_host hrx))
  · exact .inl (stays (internalStep_host hstep))
  · exact .inr (.inr (.inr (.inr (.inr (.inr hreset)))))

/-- What following an acquisition does to the HOST: its phase moves one place on, and a result may be recorded. -/
theorem hostFollow_moves (s : State) :
    hostFollow s = s ∨
    (s.port = [] ∧ (hostFollow s).host.vectors = s.host.vectors ∧ (hostFollow s).host.caps = s.host.caps ∧
      ((∃ m, s.host.phase = .acquiring m ∧ (hostFollow s).host.phase = .polling m ∧
          .endOfAcquisition ∉ s.sink.drop m) ∨
        (∃ m, s.host.phase = .polling m ∧ (hostFollow s).host.phase = .acquiring m ∧ s.rdata64 ≠ 4#64) ∨
        (∃ m, (hostFollow s).host.phase = .collecting .totalSamples ∧
          (s.host.phase = .acquiring m ∧ .endOfAcquisition ∈ s.sink.drop m ∨
            s.host.phase = .polling m ∧ s.rdata64 = 4#64)) ∨
        (s.host.phase = .collecting .totalSamples ∧ (hostFollow s).host.phase = .collecting .delayValue) ∨
        (s.host.phase = .collecting .delayValue ∧ (hostFollow s).host.phase = .collecting .status) ∨
        (s.host.phase = .collecting .status ∧ (hostFollow s).host.phase = .negotiated))) := by
  have endSeen_iff (m : Nat) : endSeen m s = true ↔ .endOfAcquisition ∈ s.sink.drop m := List.contains_iff_mem
  obtain heq | ⟨hport, hmoves⟩ := hostFollow_cases s
  · exact .inl heq
  right
  refine ⟨hport, ?_⟩
  obtain ⟨m, hphase, hseen, heq⟩ | ⟨m, hphase, hseen, heq⟩ | ⟨m, hphase, hdone, heq⟩ | ⟨m, hphase, hdone, heq⟩ |
    ⟨r, hphase, heq⟩ := hmoves <;> rw [heq]
  · exact ⟨rfl, rfl, .inr (.inr (.inl ⟨m, rfl, .inl ⟨hphase, (endSeen_iff m).mp hseen⟩⟩))⟩
  · refine ⟨rfl, rfl, .inl ⟨m, hphase, rfl, fun hmem => ?_⟩⟩
    rw [(endSeen_iff m).mpr hmem] at hseen
    cases hseen
  · exact ⟨rfl, rfl, .inr (.inr (.inl ⟨m, rfl, .inr ⟨hphase, hdone⟩⟩))⟩
  · exact ⟨rfl, rfl, .inr (.inl ⟨m, hphase, rfl, hdone⟩)⟩
  · cases r with
    | totalSamples => exact ⟨rfl, rfl, .inr (.inr (.inr (.inl ⟨hphase, rfl⟩)))⟩
    | delayValue => exact ⟨rfl, rfl, .inr (.inr (.inr (.inr (.inl ⟨hphase, rfl⟩))))⟩
    | status => exact ⟨rfl, rfl, .inr (.inr (.inr (.inr (.inr ⟨hphase, rfl⟩))))⟩

theorem hostIssues_host (items : List Command) (s : State) : (hostIssues items s).host = s.host := rfl

/-- A new session has no data width and vectors of no bytes (notes/assumptions/8.md). -/
theorem newSession_vectorsSized (h : HostState) : h.newSession.VectorsSized := by
  have hcaps : h.newSession.caps = .initial := rfl
  have hvectors : h.newSession.vectors = zeroVectors 0 := rfl
  rw [HostState.VectorsSized, hcaps, hvectors]
  exact sized_zeroVectors 0

/-! ### The boot order -/

/-- Settles O57: each of the HOST's turns moves its phase along its own edges. -/
theorem hostFollowsItsBootOrder : Obligations.HostFollowsItsBootOrder := by
  unfold Obligations.HostFollowsItsBootOrder
  intro s s' h hmoves
  obtain ⟨u, hhost, hport, hsink, hrdata, hcase⟩ := step_host_cases h
  rw [← hhost] at hmoves
  rw [← hhost, ← hport, ← hsink, ← hrdata]
  obtain ⟨hsame, -⟩ | ⟨hturn, rfl⟩ | ⟨a, hturn, rfl⟩ | ⟨r, hturn, rfl⟩ | ⟨hturn, rfl⟩ | ⟨items, -, rfl⟩ |
    ⟨hturn, rfl⟩ := hcase
  · exact absurd (by rw [hsame, hhost]) hmoves
  · obtain heq | ⟨hphase, heq⟩ := hostNegotiate_cases u
    · exact absurd (by rw [heq]) hmoves
    · exact .inr (.inl ⟨hturn, hphase, by rw [heq]⟩)
  · obtain heq | ⟨q, reply, k, hphase, hempty, heq⟩ := hostRead_cases a u
    · exact absurd (by rw [heq]) hmoves
    · refine .inr (.inr (.inl ⟨q, a, hturn, hempty, hphase, ?_⟩))
      rw [heq]
      obtain (hawaiting | hdone) | ⟨hq, e, hfail⟩ := onReply_phase q reply u.host
      · exact .inl hawaiting
      · exact .inr (.inl hdone)
      · exact .inr (.inr ⟨hq, e, by simp only [hfail]; rfl⟩)
  · obtain heq | ⟨hphase, heq⟩ := hostAcquire_cases r u
    · exact absurd (by rw [heq]) hmoves
    · obtain ⟨-, hbegin⟩ | ⟨v, -, -, hbegin, -⟩ := beginAcquisition_cases r u.draws u.sink.length u.host
      · exact absurd (by rw [heq, hbegin]; rfl) hmoves
      · exact .inr (.inr (.inr (.inl ⟨r, hturn, hphase, by rw [heq]; exact hbegin⟩)))
  · obtain heq | ⟨hempty, -, -, hedge⟩ := hostFollow_moves u
    · exact absurd (by rw [heq]) hmoves
    · exact .inr (.inr (.inr (.inr ⟨hturn, hempty, hedge⟩)))
  · exact absurd rfl hmoves
  · exact .inl ⟨hturn, rfl⟩

/-! ### The trigger vectors -/

/-- Settles O56: a reset and a bus-widths reply make the vectors anew, and so does each translation, failed or not. -/
theorem hostVectorsHaveDataWidthBytes : Obligations.HostVectorsHaveDataWidthBytes := by
  unfold Obligations.HostVectorsHaveDataWidthBytes
  refine ⟨sized_zeroVectors 0, fun s s' hsized h => ?_⟩
  obtain ⟨u, hhost, -, -, -, hcase⟩ := step_host_cases h
  rw [← hhost] at hsized
  obtain ⟨hsame, -⟩ | ⟨-, rfl⟩ | ⟨a, -, rfl⟩ | ⟨r, -, rfl⟩ | ⟨-, rfl⟩ | ⟨items, -, rfl⟩ | ⟨-, rfl⟩ := hcase
  · rw [hsame, ← hhost]
    exact hsized
  · obtain heq | ⟨-, heq⟩ := hostNegotiate_cases u <;> rw [heq] <;> exact hsized
  · obtain heq | ⟨q, reply, k, -, -, heq⟩ := hostRead_cases a u <;> rw [heq]
    · exact hsized
    · exact onReply_vectorsSized q reply hsized
  · obtain heq | ⟨-, heq⟩ := hostAcquire_cases r u <;> rw [heq]
    · exact hsized
    · obtain ⟨-, hbegin⟩ | ⟨v, htranslate, hvectors, -, hcaps⟩ := beginAcquisition_cases r u.draws u.sink.length u.host
      · rw [hbegin]
        exact sized_vectorsAfterFailure _ _
      · simp only [hostDecides, hvectors, hcaps]
        exact sized_translate htranslate
  · obtain heq | ⟨-, hvectors, hcaps, -⟩ := hostFollow_moves u
    · rw [heq]
      exact hsized
    · rw [hvectors, hcaps]
      exact hsized
  · exact hsized
  · exact newSession_vectorsSized u.host

/-! ### After a failed identity check -/

/-- The item neither ARMs the block nor writes a configuration register (60_exceptions.md R269). -/
def Command.HoldsBack (c : Command) : Prop :=
  decode c ≠ .ok .arm ∧ ∀ a v, decode c = .ok (.writeReg a v) → 0x04 < a.toNat

theorem holdsBack_of_not_failed {s : State} (h : ∀ e, s.host.phase ≠ .failed e) : s.FailedHostHoldsBack :=
  fun e he => absurd he (h e)

theorem HostPhase.GoesOn.ne_failed {p : HostPhase} (h : p.GoesOn) (e : HostException) : p ≠ .failed e := by
  obtain ⟨q, rfl⟩ | rfl := h <;> simp

/-- What a failed HOST hands over of its own choosing holds back. -/
theorem hostIssues_holdsBack {s : State} (items : List Command) (h : s.FailedHostHoldsBack) :
    (hostIssues items s).FailedHostHoldsBack := by
  intro e he c hc
  rw [hostIssues_host] at he
  obtain ⟨hnot, -⟩ | ⟨-, heq⟩ := hostIssues_cases items s
  · exact absurd he (hnot e)
  · rw [heq] at hc
    obtain hc | hc := List.mem_append.mp hc
    · exact h e he c hc
    · have hkept : configuresOrArms c = false := by simpa using (List.mem_filter.mp hc).2
      exact (configuresOrArms_eq_false_iff c).mp hkept

/-- Of items that all hold back a HOST hands over every one. -/
theorem takeTurn_hostIssues_of_allowed {s : State} {items : List Command}
    (h : (∀ e, s.host.phase ≠ .failed e) ∨ ∀ c ∈ items, Command.HoldsBack c) :
    takeTurn (.hostIssues items) s = .next { s with port := s.port ++ items } := by
  have hturn : takeTurn (.hostIssues items) s = .next (hostIssues items s) := rfl
  rw [hturn]
  obtain ⟨-, heq⟩ | ⟨⟨e, hfailed⟩, heq⟩ := hostIssues_cases items s
  · rw [heq]
  · have hall := h.resolve_left fun hnot => hnot e hfailed
    have hfilter : items.filter (fun c => !configuresOrArms c) = items :=
      List.filter_eq_self.mpr fun c hc => by simp [(configuresOrArms_eq_false_iff c).mpr (hall c hc)]
    rw [heq, hfilter]

/-- Settles O55: the port of a HOST that fails is empty, and afterwards it hands over only what holds back. -/
theorem aFailedHostNeitherConfiguresNorArms : Obligations.AFailedHostNeitherConfiguresNorArms := by
  unfold Obligations.AFailedHostNeitherConfiguresNorArms
  refine ⟨holdsBack_of_not_failed (by simp [State.reset, HostState.initial]), fun s s' hs h => ?_,
    fun s e hs hfailed => ?_, fun s items h => takeTurn_hostIssues_of_allowed h⟩
  · obtain ⟨u, hhost, hport, -, -, hcase⟩ := step_host_cases h
    have hu : u.FailedHostHoldsBack := by
      unfold State.FailedHostHoldsBack
      rw [hhost, hport]
      exact hs
    obtain ⟨hsame, hports⟩ | ⟨-, rfl⟩ | ⟨a, -, rfl⟩ | ⟨r, -, rfl⟩ | ⟨-, rfl⟩ | ⟨items, -, rfl⟩ | ⟨-, rfl⟩ := hcase
    · intro e he c hc
      rw [hsame] at he
      obtain heq | ⟨d, heq⟩ := hports
      · exact hs e he c (by rwa [heq] at hc)
      · exact hs e he c (by rw [heq]; exact List.mem_cons_of_mem d hc)
    · obtain heq | ⟨-, heq⟩ := hostNegotiate_cases u <;> rw [heq]
      · exact hu
      · exact holdsBack_of_not_failed (by simp)
    · obtain heq | ⟨q, reply, k, -, -, heq⟩ := hostRead_cases a u <;> rw [heq]
      · exact hu
      · obtain hgoes | ⟨-, e, hfail⟩ := onReply_phase q reply u.host
        · exact holdsBack_of_not_failed hgoes.ne_failed
        · intro e' _ c hc
          simp [hfail, failNegotiation] at hc
    · obtain heq | ⟨hphase, heq⟩ := hostAcquire_cases r u <;> rw [heq]
      · exact hu
      · refine holdsBack_of_not_failed fun e => ?_
        obtain ⟨-, hbegin⟩ | ⟨v, -, -, hbegin, -⟩ := beginAcquisition_cases r u.draws u.sink.length u.host
        · simp [hostDecides, hbegin, hphase]
        · simp [hostDecides, hbegin]
    · obtain heq | ⟨-, -, -, hedge⟩ := hostFollow_moves u
      · rw [heq]
        exact hu
      · refine holdsBack_of_not_failed fun e he => ?_
        rw [he] at hedge
        simp at hedge
    · exact hostIssues_holdsBack items hu
    · exact holdsBack_of_not_failed (by simp [resetBlock, HostState.newSession, HostState.initial])
  · have back {i : Instr} (hi : s.issues i) : ∃ c, decode c = .ok i ∧ Command.HoldsBack c := by
      obtain ⟨-, c, cs, hport, hdecode⟩ := hi
      exact ⟨c, hdecode, hs e hfailed c (by rw [hport]; exact List.mem_cons_self)⟩
    constructor
    · intro hi
      obtain ⟨c, hdecode, harm, -⟩ := back hi
      exact harm hdecode
    · intro a v hi
      obtain ⟨c, hdecode, -, hwrite⟩ := back hi
      exact hwrite a v hdecode

/-! ### Reading the results -/

theorem decode_rreg (r : Reg) : decode (rreg r) = .ok (.readReg r.addr) := decode_encode _

theorem hostFollow_of_collecting {s : State} {r : ResultRegister} (hphase : s.host.phase = .collecting r)
    (hport : s.port = []) : hostFollow s = hostDecides (takeResult r s.rdata64 s.host) s := by
  rw [hostFollow, hphase, hport]

/-- `s` once the result asked for has been read and taken. -/
def State.afterCollect (r : ResultRegister) (s : State) : State :=
  { s with
    rdata64 := BitVec.ofNat 64 (s.regValue r.reg)
    host := (takeResult r (BitVec.ofNat 64 (s.regValue r.reg)) s.host).1
    port := (takeResult r (BitVec.ofNat 64 (s.regValue r.reg)) s.host).2 }

theorem afterCollect_totalSamples (s : State) :
    s.afterCollect .totalSamples =
      { s with
        rdata64 := BitVec.ofNat 64 s.totalSamples
        host := { s.host with
          phase := .collecting .delayValue
          results := { s.host.results with totalSamples := some (BitVec.ofNat 64 s.totalSamples) } }
        port := [rreg .delayValue] } := rfl

theorem afterCollect_delayValue (s : State) :
    s.afterCollect .delayValue =
      { s with
        rdata64 := BitVec.ofNat 64 s.delayValue
        host := { s.host with
          phase := .collecting .status
          results := { s.host.results with delayValue := some (BitVec.ofNat 64 s.delayValue) } }
        port := [rreg .status] } := rfl

theorem afterCollect_status (s : State) :
    s.afterCollect .status =
      { s with
        rdata64 := BitVec.ofNat 64 s.status.toNat
        host := { s.host with
          phase := .negotiated
          results := { s.host.results with status := some (BitVec.ofNat 64 s.status.toNat) } }
        port := [] } := rfl

/-- Once a result has been asked for, the HOST issues its READ_REG and takes the value. -/
theorem takeTurns_collect {s : State} {r : ResultRegister} (hphase : s.host.phase = .collecting r)
    (hport : s.port = [rreg r.reg]) (turns : List Turn) :
    takeTurns (.hostOp :: .hostFollow :: turns) s = takeTurns turns (s.afterCollect r) := by
  have hissue : takeTurn .hostOp s =
      .next { s with port := [], rdata64 := BitVec.ofNat 64 (s.regValue r.reg) } := by
    have hvalue : State.regValue r.reg { s with port := [] } = s.regValue r.reg := by cases r <;> rfl
    rw [takeTurn_hostOp_of_port hport, runItem_of_decode_ok (decode_rreg r.reg), exec_readReg_addr hvalue]
  have hfollow : takeTurn .hostFollow { s with port := [], rdata64 := BitVec.ofNat 64 (s.regValue r.reg) } =
      .next (s.afterCollect r) :=
    congrArg Host.Outcome.next
      (hostFollow_of_collecting (s := { s with port := [], rdata64 := BitVec.ofNat 64 (s.regValue r.reg) }) hphase rfl)
  rw [takeTurns_cons_of_next hissue, takeTurns_cons_of_next hfollow]

/-- Once END has been seen the HOST asks for the first result. -/
theorem takeTurn_hostFollow_of_end {s : State} {m : Nat} (hphase : s.host.phase = .acquiring m)
    (hend : .endOfAcquisition ∈ s.sink.drop m) (hport : s.port = []) :
    takeTurn .hostFollow s =
      .next { s with host := { s.host with phase := .collecting .totalSamples }, port := [rreg .totalSamples] } := by
  have hseen : endSeen m s = true := List.contains_iff_mem.mpr hend
  have hturn : takeTurn .hostFollow s = .next (hostFollow s) := rfl
  rw [hturn, hostFollow, hphase, hport]
  simp [hseen, hostDecides, askResult, ResultRegister.reg, hport]

/-- Settles O58: END has been seen, so the HOST asks for the three results in turn. -/
theorem hostReadsTheResultsOfAnAcquisition : Obligations.HostReadsTheResultsOfAnAcquisition := by
  unfold Obligations.HostReadsTheResultsOfAnAcquisition
  intro s m hphase hend hport
  have hempty : ({ s with port := [] } : State) = s := by rw [← hport]
  rw [takeTurns_cons_of_next (takeTurn_hostFollow_of_end hphase hend hport),
    takeTurns_collect (r := .totalSamples) rfl rfl, afterCollect_totalSamples,
    takeTurns_collect (r := .delayValue) rfl rfl, afterCollect_delayValue,
    takeTurns_collect (r := .status) rfl rfl, afterCollect_status, takeTurns]
  exact ⟨_, rfl, rfl, hempty⟩

/-! ### A device without features -/

theorem decode_wreg (r : Reg) (v : Nat) : decode (wreg r v) = .ok (.writeReg r.addr (BitVec.ofNat 64 v)) := decode_encode _

/-- A number read from `n` bytes has `8 * n` bits. -/
theorem le_lt (bs : List Byte) : le bs < 2 ^ (8 * bs.length) := by
  have htake := le_take bs.length bs
  rw [List.take_length] at htake
  rw [htake]
  exact Nat.mod_lt _ (Nat.two_pow_pos _)

/-- The HOST issues a configuration write while no acquisition is active. -/
theorem takeTurns_wreg {s s' : State} {r : Reg} {v : Nat} {cs : List Command} (hport : s.port = wreg r v :: cs)
    (hactive : ¬ s.active = true) (h : writeConfig r (BitVec.ofNat 64 v) { s with port := cs } = some s')
    (turns : List Turn) : takeTurns (.hostOp :: turns) s = takeTurns turns s' := by
  have hissue : takeTurn .hostOp s = .next s' := by
    rw [takeTurn_hostOp_of_port hport, runItem_of_decode_ok (decode_wreg r v)]
    exact exec_writeReg_of_not_active hactive h
  exact takeTurns_cons_of_next hissue turns

/-- What the HOST knows of a device of version 1 that has no features (source example S8). -/
def capsWithoutFeatures (widths : List Byte) : DeviceCapabilities :=
  { DeviceCapabilities.initial with
    protocolVersion := .v1
    dataWidth := le (widths.take 4)
    addrWidth := le ((widths.drop 4).take 4) }

/-- Without feature flags a bus-widths reply is the last one: no request 4, 5 or 6 is asked. -/
theorem onReply_busWidths_without_features {h : HostState} (hflags : h.caps.featureFlags = 0) (widths : List Byte) :
    onReply .busWidths (.ok widths) h =
      finishNegotiation
        { h with
          caps := { h.caps.withWidths (some widths) with runlengthCodeWidth := 0 }
          vectors := zeroVectors (ceilDiv (le (widths.take 4)) 8)
          requestedLimit := none } := by
  simp [onReply, noteFailure, askRlcWidth, askChannelNames, askSampleRate, DeviceCapabilities.hasRlc,
    DeviceCapabilities.hasChannelNames, DeviceCapabilities.hasSampleRate, hflags, DeviceCapabilities.withWidths,
    Except.toOption, busWidthsOf]

/-- The HOST when it has asked for the widths of a device of version 1 without features. -/
def hostBeforeWidths : HostState :=
  { HostState.initial with
    caps := { DeviceCapabilities.initial with protocolVersion := .v1 }
    phase := .awaiting .busWidths }

theorem negotiate_without_features (widths : List Byte) :
    ∃ h, negotiate [.ok tokenV1, .ok [0#8, 0#8, 0#8, 0#8], .ok widths] (startNegotiation HostState.initial) =
        (h, [opc 0xBB#8, opc 0x10#8, opc 0xAA#8] ++ configureBlock (capsWithoutFeatures widths)) ∧
      h.phase = .negotiated ∧ h.caps = capsWithoutFeatures widths := by
  have twoReplies : negotiate [.ok tokenV1, .ok [0#8, 0#8, 0#8, 0#8], .ok widths] (startNegotiation HostState.initial) =
      negotiate [.ok widths] (hostBeforeWidths, [opc 0xBB#8, opc 0x10#8, opc 0xAA#8]) := rfl
  have lastReply := onReply_busWidths_without_features (h := hostBeforeWidths) rfl widths
  have hphase : hostBeforeWidths.phase = .awaiting .busWidths := rfl
  refine ⟨(onReply .busWidths (.ok widths) hostBeforeWidths).1, ?_, ?_, ?_⟩
  · rw [twoReplies, negotiate, hphase]
    simp only [negotiate, lastReply]
    rfl
  · rw [lastReply]
    rfl
  · rw [lastReply]
    rfl

/-- Configuration writes send nothing. -/
theorem wireOfProgram_configureBlock (c : DeviceCapabilities) : wireOfProgram (configureBlock c) = [] := by
  have item (r : Reg) (v : Nat) : wireOfItem (wreg r v) = [] := wireOfItem_of_decode (decode_wreg r v)
  simp [wireOfProgram, configureBlock, item]

/-- `s` when the HOST has written the first of the three capabilities. -/
def State.dataConfigured (c : DeviceCapabilities) (s : State) : State :=
  { s with port := (configureBlock c).drop 1, dataWidth := (BitVec.ofNat 64 c.dataWidth).setWidth 32 }

/-- `s` when the HOST has written the first two. -/
def State.addrConfigured (c : DeviceCapabilities) (s : State) : State :=
  { s.dataConfigured c with
    port := (configureBlock c).drop 2
    addrWidth := (BitVec.ofNat 64 c.addrWidth).setWidth 32
    limitSamples := twoPowMod64 ((BitVec.ofNat 64 c.addrWidth).setWidth 32).toNat }

/-- The block takes the widths and the code width that the HOST writes. -/
theorem takeTurns_configureBlock {s : State} (hidle : s.state = .idle) (c : DeviceCapabilities) :
    takeTurns [.hostOp, .hostOp, .hostOp] { s with port := configureBlock c } = .next
      { s with
        port := []
        dataWidth := (BitVec.ofNat 64 c.dataWidth).setWidth 32
        addrWidth := (BitVec.ofNat 64 c.addrWidth).setWidth 32
        limitSamples := twoPowMod64 ((BitVec.ofNat 64 c.addrWidth).setWidth 32).toNat
        rlcWidth := (BitVec.ofNat 64 c.runlengthCodeWidth.toNat).setWidth 8 } := by
  have hactive : ¬ s.active = true := (not_active_iff s).mpr (.inl hidle)
  calc takeTurns [.hostOp, .hostOp, .hostOp] { s with port := configureBlock c }
      = takeTurns [.hostOp, .hostOp] (s.dataConfigured c) :=
        takeTurns_wreg (s := { s with port := configureBlock c }) (r := .dataWidth) rfl hactive rfl _
    _ = takeTurns [.hostOp] (s.addrConfigured c) :=
        takeTurns_wreg (s := s.dataConfigured c) (r := .addrWidth) rfl hactive rfl _
    _ = takeTurns [] { s.addrConfigured c with
          port := [], rlcWidth := (BitVec.ofNat 64 c.runlengthCodeWidth.toNat).setWidth 8 } :=
        takeTurns_wreg (s := s.addrConfigured c) (r := .rlcWidth) rfl hactive rfl _

/-- A number of 32 bits is written and read back unchanged. -/
theorem toNat_setWidth_ofNat {v : Nat} (h : v < 2 ^ 32) : ((BitVec.ofNat 64 v).setWidth 32).toNat = v := by
  rw [BitVec.toNat_setWidth, BitVec.toNat_ofNat]
  omega

/-- Settles O59: the negotiation ends with the widths, and the block takes what the HOST then writes. -/
theorem deviceWithoutFeaturesIsAskedNothingMore : Obligations.DeviceWithoutFeaturesIsAskedNothingMore := by
  unfold Obligations.DeviceWithoutFeaturesIsAskedNothingMore
  intro widths hlen out
  obtain ⟨h, hout, hphase, hcaps⟩ := negotiate_without_features widths
  have hout' : out = (h, [opc 0xBB#8, opc 0x10#8, opc 0xAA#8] ++ configureBlock (capsWithoutFeatures widths)) := hout
  have hhigh : (widths.drop 4).take 4 = widths.drop 4 := List.take_of_length_le (by rw [List.length_drop]; omega)
  have haddr : (capsWithoutFeatures widths).addrWidth = le (widths.drop 4) := congrArg le hhigh
  have hdataLt : le (widths.take 4) < 2 ^ 32 := by
    have hlt := le_lt (widths.take 4)
    rwa [List.length_take_of_le (by omega)] at hlt
  have haddrLt : le (widths.drop 4) < 2 ^ 32 := by
    have hlt := le_lt (widths.drop 4)
    rwa [List.length_drop, hlen] at hlt
  have hrequests : wireOfProgram [opc 0xBB#8, opc 0x10#8, opc 0xAA#8] = [0xBB#8, 0x10#8, 0xAA#8] :=
    wireOfProgram_map_opc [0xBB#8, 0x10#8, 0xAA#8]
  rw [hout']
  refine ⟨hphase, ?_, ?_, ?_, ?_, ?_, fun i => ?_, fun s hidle => ?_⟩
  · rw [wireOfProgram_append, hrequests, wireOfProgram_configureBlock, List.append_nil]
  · rw [hcaps]
    rfl
  · rw [hcaps, haddr]
  · rw [hcaps]
    rfl
  · rw [hcaps]
    rfl
  · rw [hcaps]
    rfl
  · refine ⟨_, takeTurns_configureBlock hidle (capsWithoutFeatures widths), toNat_setWidth_ofNat hdataLt, ?_, rfl, ?_⟩
    · rw [haddr]
      exact toNat_setWidth_ofNat haddrLt
    · rw [haddr, toNat_setWidth_ofNat haddrLt, twoPowMod64_eq]

end Sys2Proof.Machine
end
